-- ==== Sys2Proof/Word.lean ====
section
/-! DEFINITION. The machine's two word types (spec/00_scope.md R7, R12): 8-bit data and 16-bit addresses. -/

namespace Sys2Proof

/-- An 8-bit value: the data word, A, X, Y, SP and every memory byte (R7). -/
abbrev Byte := BitVec 8

/-- A 16-bit value: PC and every bus address (R7). -/
abbrev Word := BitVec 16

end Sys2Proof
end

