-- ==== Sys2Proof/Config.lean ====
section
/-! DEFINITION. The configuration parameters of spec/00_scope.md R8 (`DECIMAL_MODE`, `ILLEGAL_POLICY`, `BUS`), the plain data
they speak about, and the free values: what the spec leaves open and this model leaves uninterpreted. A state carries its
configuration in a field that nothing writes (DESIGN CHOICE, safe: log entry 2), so a statement about every state is one about every
configuration. -/

namespace Sys2Proof

/-- The six stored bits of P (R24, R27, R35). U and B are not stored: `Machine.registerView` and `Machine.pushedP` supply them
(DESIGN CHOICE, safe: log entry 19). -/
structure Flags where
  n : Bool
  v : Bool
  d : Bool
  i : Bool
  z : Bool
  c : Bool
deriving DecidableEq, Repr, Inhabited

/-- The six architectural registers together (R20): the register values of a power-on (R36) and of a behaviour of an alias table (R11). -/
structure Registers where
  a : Byte
  x : Byte
  y : Byte
  sp : Byte
  pc : Word
  flags : Flags
deriving DecidableEq, Repr, Inhabited

/-- One bus event (R16, R53, R54): an access with its address and its byte. -/
inductive BusEvent where
  | read (addr : Word) (v : Byte)
  | write (addr : Word) (v : Byte)
deriving DecidableEq, Repr

/-- What a Step can report other than `Ok` (R17, R300-R302). -/
inductive StepError where
  | unimplementedOpcode (opcode : Byte) (pc : Word)
  | invalidAddressingMode
  | decimalUnmodelled
deriving DecidableEq, Repr

/-- `DECIMAL_MODE` (R10): how ADC and SBC behave when flag D is 1. -/
inductive DecimalMode where
  | binary
  | nmosBcd
  | refuse
deriving DecidableEq, Repr

/-- `ILLEGAL_POLICY` (R11): what an opcode byte with no Dispatch Entry does. A table is a partial map from undefined opcode
bytes to behaviours, each behaviour named by a number; `Config.aliasBehaviour` says what a number does. -/
inductive IllegalPolicy where
  | fail
  | aliased (table : List (Byte × Nat))
deriving DecidableEq, Repr

/-- A range of addresses, both ends included, that the bus oracle answers. -/
structure IoRegion where
  first : Word
  last : Word
deriving DecidableEq, Repr

/-- The static parameters of R8, which no instruction can read or write (R32). `io` is the platform's part of `BUS` (R52):
an address in one of its regions is answered by the oracle `Config.busAnswer`; every other address is backed by RAM. -/
structure Config where
  decimalMode : DecimalMode
  illegalPolicy : IllegalPolicy
  io : List IoRegion
deriving DecidableEq, Repr

/-- R8's defaults, and a bus that is RAM everywhere (DESIGN CHOICE, unsafe for a platform with a device: log entry 4). -/
def Config.standard : Config := { decimalMode := .binary, illegalPolicy := .fail, io := [] }

/-- What one behaviour of an alias table does once it runs, as the executor sees it: bus accesses one after another, then the registers
it leaves and the ticks it charges. It has no way to report an error: "There is no partial-failure state" (R83). -/
inductive AliasProgram where
  | read (addr : Word) (cont : Byte → AliasProgram)
  | write (addr : Word) (v : Byte) (cont : AliasProgram)
  | done (regs : Registers) (ticks : Nat)
deriving Inhabited

/-- One behaviour of an alias table: whether it is marked decimal, so that it is refused where R302 refuses ADC and SBC (DESIGN CHOICE,
safe: log entry 3), and what it does from the registers after the opcode fetch. -/
structure AliasBehaviour where
  decimal : Bool
  program : Registers → AliasProgram
deriving Inhabited

/-- FREE VALUE (DESIGN CHOICE, safe: log entry 3). The behaviour a number of an alias table stands for: "The table is
not given by any source" (R78), so nothing constrains it. -/
opaque Config.aliasBehaviour : Nat → AliasBehaviour

/-- FREE VALUE (DESIGN CHOICE, safe: log entry 4). The byte the bus answers to a read of an address in an I/O region, "as an oracle
that may look at the event history so far" (R52): the history is given newest event first. -/
opaque Config.busAnswer : List BusEvent → Word → Byte

end Sys2Proof
end

