-- ==== Sys2Proof/Machine/Bits.lean ====
section
/-! DEFINITION. Bit fields, concatenation and sign extension (spec/00_scope.md R12), and the page of an address (R113). -/

namespace Sys2Proof.Machine

/-- `word(hi, lo)` (R12): the 16-bit value whose high byte is `hi` and low byte is `lo`. -/
def word (hi lo : Byte) : Word := hi ++ lo

/-- `lo8(w) = w[7:0]` (R12). -/
def lo8 (w : Word) : Byte := w.extractLsb' 0 8

/-- `hi8(w) = w[15:8]` (R12). -/
def hi8 (w : Word) : Byte := w.extractLsb' 8 8

/-- `sext_16(v)` (R12). -/
def sext16 (v : Byte) : Word := v.signExtend 16

/-- `signed8(v)` (R12): the two's complement reading of a byte. -/
def signed8 (v : Byte) : Int := v.toInt

/-- The page-cross test (R113): "two 16-bit addresses are on different pages iff their high bytes differ". -/
def pageDiffers (a b : Word) : Bool := hi8 a != hi8 b

/-- A bit as the number 0 or 1 (R12, R13). -/
def bit (b : Bool) : Nat := if b then 1 else 0

end Sys2Proof.Machine
end

