-- ==== Sys2Proof/Machine/Flags.lean ====
section
/-! DEFINITION. P as a byte (spec/10_state.md R24-R28), and every computation of a result with its flags: the binary and decimal
adders (spec/43_arithmetic_logic.md R181-R184), compares, shifts and rotates (spec/44_shift_incdec_compare.md R201-R211). -/

namespace Sys2Proof.Machine

/-! ## P as a byte -/

/-- `PushedP(b)` (R28): the status byte a push writes, with B = `b` and bit 5 = 1, over the layout of R24
(UNVERIFIED, unsafe: log entry 10). -/
def pushedP (f : Flags) (b : Bool) : Byte :=
  BitVec.ofNat 8 (bit f.n * 128 + bit f.v * 64 + 32 + bit b * 16 + bit f.d * 8 + bit f.i * 4 + bit f.z * 2 + bit f.c)

/-- The register view of P (R27): U reads 1, B reads 0. -/
def registerView (f : Flags) : Byte := pushedP f false

/-- The six flags of a pulled byte (R164): bits 5 and 4 are discarded (R27). -/
def flagsOfByte (p : Byte) : Flags :=
  { n := p.getLsbD 7, v := p.getLsbD 6, d := p.getLsbD 3, i := p.getLsbD 2, z := p.getLsbD 1, c := p.getLsbD 0 }

/-- `SetZN(v)` (R26). -/
def setZN (v : Byte) (f : Flags) : Flags := { f with z := v == 0, n := v.getLsbD 7 }

/-! ## Addition and subtraction -/

/-- What `AddCore` returns (R181). -/
structure AdderResult where
  r : Byte
  c : Bool
  v : Bool
deriving DecidableEq, Repr

/-- A result with the four flags ADC and SBC write (R182-R184). -/
structure AluResult where
  r : Byte
  c : Bool
  v : Bool
  n : Bool
  z : Bool
deriving DecidableEq, Repr

/-- `AddCore(a, b, cin)` (R181): the 8-bit binary adder. -/
def addCore (a b : Byte) (cin : Bool) : AdderResult :=
  let s := a.toNat + b.toNat + bit cin
  let r := BitVec.ofNat 8 s
  { r := r, c := decide (s > 255), v := (~~~(a ^^^ b) &&& (a ^^^ r) &&& 0x80) != 0 }

/-- A sum of the binary adder with N and Z taken from it (R182, R184). -/
def AdderResult.toAlu (s : AdderResult) : AluResult :=
  { r := s.r, c := s.c, v := s.v, n := s.r.getLsbD 7, z := s.r == 0 }

/-- `v & 0x0F`, a decimal digit of a byte (R183). -/
def lowDigit (v : Byte) : Nat := v.toNat % 16

/-- `v & 0xF0` (R183). -/
def highPart (v : Byte) : Nat := v.toNat / 16 * 16

/-- `DecAdd(a, b, cin)` (R183). On digits above 9 a chip may differ (UNVERIFIED, unsafe for a chip: log entry 13). -/
def decAdd (a b : Byte) (cin : Bool) : AluResult :=
  let al₀ := lowDigit a + lowDigit b + bit cin
  let al := if al₀ ≥ 0x0A then (al₀ + 0x06) % 16 + 0x10 else al₀
  let s := highPart a + highPart b + al
  let t := signed8 (a &&& 0xF0) + signed8 (b &&& 0xF0) + (al : Int)
  let s' := if s ≥ 0xA0 then s + 0x60 else s
  { r := BitVec.ofNat 8 s'
    c := decide (s' ≥ 0x100)
    v := decide (t < -128 ∨ t > 127)
    n := (BitVec.ofNat 8 s).getLsbD 7
    z := BitVec.ofNat 8 (a.toNat + b.toNat + bit cin) == 0 }

/-- `DecSub(a, b, cin)` (R183): the flags are those of the binary subtraction. -/
def decSub (a b : Byte) (cin : Bool) : AluResult :=
  let binary := addCore a (~~~b) cin
  let al₀ : Int := (lowDigit a : Int) - (lowDigit b : Int) + (bit cin : Int) - 1
  let al := if al₀ < 0 then (al₀ - 0x06) % 16 - 0x10 else al₀
  let s := (highPart a : Int) - (highPart b : Int) + al
  let s' := if s < 0 then s - 0x60 else s
  { binary.toAlu with r := BitVec.ofInt 8 s' }

/-- What ADC computes (R182): decimal only under `NmosBcd` with D = 1. -/
def adcResult (mode : DecimalMode) (d : Bool) (a m : Byte) (cin : Bool) : AluResult :=
  if d && mode == .nmosBcd then decAdd a m cin else (addCore a m cin).toAlu

/-- What SBC computes (R184): "ADC with the subtrahend's one's-complement", decimal only under `NmosBcd` with D = 1. -/
def sbcResult (mode : DecimalMode) (d : Bool) (a m : Byte) (cin : Bool) : AluResult :=
  if d && mode == .nmosBcd then decSub a m cin else (addCore a (~~~m) cin).toAlu

/-- Write the four flags of ADC and SBC (R182, R184). -/
def AluResult.setFlags (q : AluResult) (f : Flags) : Flags := { f with c := q.c, v := q.v, n := q.n, z := q.z }

/-! ## Compare and BIT -/

/-- `Compare(r, M)` (R211): the flags of register − operand. -/
def compareFlags (r m : Byte) (f : Flags) : Flags :=
  { f with c := decide (m ≤ r), z := r == m, n := (r - m).getLsbD 7 }

/-- The flags of BIT (R189): N and V come from the operand, Z from its AND with A. -/
def bitFlags (a m : Byte) (f : Flags) : Flags :=
  { f with z := (a &&& m) == 0, n := m.getLsbD 7, v := m.getLsbD 6 }

/-! ## Read-modify-write functions -/

/-- What a read-modify-write instruction makes of a byte and the flags (R200). -/
structure Modified where
  r : Byte
  flags : Flags
deriving DecidableEq, Repr

/-- ASL (R201). -/
def aslByte (v : Byte) (f : Flags) : Modified :=
  let r := v <<< 1
  { r := r, flags := setZN r { f with c := v.getLsbD 7 } }

/-- LSR (R202). -/
def lsrByte (v : Byte) (f : Flags) : Modified :=
  let r := v >>> 1
  { r := r, flags := setZN r { f with c := v.getLsbD 0 } }

/-- ROL (R203): the old carry comes in at bit 0. -/
def rolByte (v : Byte) (f : Flags) : Modified :=
  let r := BitVec.ofNat 8 (v.toNat * 2 + bit f.c)
  { r := r, flags := setZN r { f with c := v.getLsbD 7 } }

/-- ROR (R204): the old carry comes in at bit 7. -/
def rorByte (v : Byte) (f : Flags) : Modified :=
  let r := BitVec.ofNat 8 (v.toNat / 2 + bit f.c * 128)
  { r := r, flags := setZN r { f with c := v.getLsbD 0 } }

/-- INC (R205). -/
def incByte (v : Byte) (f : Flags) : Modified := { r := v + 1, flags := setZN (v + 1) f }

/-- DEC (R206). -/
def decByte (v : Byte) (f : Flags) : Modified := { r := v - 1, flags := setZN (v - 1) f }

end Sys2Proof.Machine
end

