-- ==== Sys2Proof/Machine/State.lean ====
section
/-! DEFINITION. The machine's state (spec/10_state.md R20-R35), with the bus side it acts on (spec/20_memory.md R52: memory, event
history; R55: cycle counter) and its configuration (R8); what a Step can end in other than a next state; power-on and reset. -/

namespace Sys2Proof.Machine

/-- The dispatch state between Steps (R33, R35). `Sequencing` exists only inside a Step (R81), so no value of it stands here
(DEDUCED, safe: log entry 12). -/
inductive Fsm where
  | running
  | faulted (e : StepError)
deriving DecidableEq, Repr

/-- The bytes of the address space (R50), by address: addresses strictly rising, no entry equal to what an unlisted address
reads as (`Memory.unlisted`, `Memory.wf`). -/
abbrev Memory := List Host.Cell

/-- Everything the spec gives the machine. -/
structure State where
  /-- The accumulator (R20, R21). -/
  a : Byte
  /-- The index register X (R20, R21). -/
  x : Byte
  /-- The index register Y (R20, R21). -/
  y : Byte
  /-- The stack pointer (R20, R30). -/
  sp : Byte
  /-- The program counter (R20, R22). -/
  pc : Word
  /-- The six stored bits of P (R24, R27, R35). -/
  flags : Flags
  /-- The dispatch state (R33, R81). -/
  fsm : Fsm
  /-- A Reset has been requested and not yet sequenced (R33, R311). -/
  resetPending : Bool
  /-- An NMI edge has been latched and not yet taken (R33, R311). -/
  nmiPending : Bool
  /-- The level of the IRQ request input (R33, R311). -/
  irqLine : Bool
  /-- The bytes behind the bus (R50, R52). -/
  mem : Memory
  /-- The cycle counter that `tick()` advances (R9, R55). -/
  cycles : Nat
  /-- Every bus event since the launch, newest first (R16, R52-R54): a Step's events are those it puts before the ones it found. The
  model's own field (DESIGN CHOICE, safe: log entry 8). -/
  trace : List BusEvent
  /-- The static parameters (R8, R32), which nothing writes (DESIGN CHOICE, safe: log entry 2). -/
  cfg : Config
deriving DecidableEq, Repr

/-- What stops a Step with an error (R17, R300, R301), each with the state the machine is left in (DESIGN CHOICE, safe: log entry 1):
a host can go on from it, and only a Reset leaves it (R304). -/
inductive Fault where
  /-- R300. Raised by `step` at dispatch, for a byte with no Dispatch Entry that the policy does not map, and again by every later
  Step until a Reset (R304). Safe: a run that meets it proves nothing more. -/
  | unimplementedOpcode (opcode : Byte) (pc : Word) (after : State)
  /-- R301. Raised by a handler called with a mode it never supports, which no instruction of the table does ("unreachable in a
  correct dispatch table"; DESIGN CHOICE, safe: log entry 16). Safe: a run that meets it proves nothing more. -/
  | invalidAddressingMode (after : State)
deriving DecidableEq, Repr

/-- What a Step is refused for. -/
inductive Refusal where
  /-- Raised by an arm of `exec` whose instruction has no meaning yet; no arm does. Safe. -/
  | notModelled (mnemonic : String)
  /-- R302. Raised by ADC and SBC, and by a behaviour of an alias table marked decimal (DESIGN CHOICE, safe: log entry 3), with D = 1
  under `DECIMAL_MODE = Refuse`, with the state the machine is left in, and again by every later Step until a Reset (R304).
  Safe: "It marks a behaviour this model gives no meaning to". -/
  | decimalUnmodelled (after : State)
deriving DecidableEq, Repr

/-- What a meaning or a Step answers. -/
abbrev Result := Host.Outcome State Fault Refusal

/-- The flags after a Reset (R340, R341): register view P = 0x24. -/
def resetFlags : Flags := { n := false, v := false, d := false, i := true, z := false, c := false }

/-- Power-on (R342): a Reset is pending, so that the first Step is the Reset sequence; the registers hold any values `r`, which "no
instruction can observe" (R36; DEDUCED, safe: log entry 18). The cycle counter starts at a value the launch gives (R9): `launch`. -/
def State.powerOn (r : Registers) (launch : Nat) (mem : Memory) (cfg : Config) : State :=
  { a := r.a, x := r.x, y := r.y, sp := r.sp, pc := r.pc, flags := r.flags
    fsm := .running, resetPending := true, nmiPending := false, irqLine := false
    mem := mem, cycles := launch, trace := [], cfg := cfg }

/-- The machine right after the Reset sequence (R341), from a power-on with the counter at 0, nothing in memory and R8's default
parameters (DESIGN CHOICE, unsafe: log entries 2, 4, 5, 6 and 7): the word at 0xFFFC/0xFFFD then reads 0x0000, and the two reads of
it are the events so far. -/
def State.reset : State :=
  { a := 0x00, x := 0x00, y := 0x00, sp := 0xFD, pc := 0x0000, flags := resetFlags
    fsm := .running, resetPending := false, nmiPending := false, irqLine := false
    mem := [], cycles := 7, trace := [.read 0xFFFD 0x00, .read 0xFFFC 0x00], cfg := Config.standard }

end Sys2Proof.Machine
end

