-- ==== Sys2Proof/Syntax.lean ====
section
/-! DEFINITION. The instruction set as syntax: the mnemonics (spec/30_encoding.md R70), the addressing-mode tags (R73), an operand
with its mode (R71, R74), and `Instr`, one constructor for each row of spec/opcode_table.json. -/

namespace Sys2Proof

/-- The 56 mnemonics (R70). -/
inductive Mnemonic where
  | lda | ldx | ldy
  | sta | stx | sty
  | tax | txa | tay | tya | tsx | txs
  | pha | pla | php | plp
  | adc | sbc
  | and | ora | eor | bit
  | asl | lsr | rol | ror
  | inc | dec | inx | dex | iny | dey
  | cmp | cpx | cpy
  | bcc | bcs | beq | bne | bpl | bmi | bvc | bvs
  | jmp | jsr | rts | rti
  | clc | sec | cli | sei | cld | sed | clv
  | nop | brk
deriving DecidableEq, Repr

/-- The addressing-mode tag, "an enumerated tag (no payload)" with twelve values (R73). -/
inductive Mode where
  | implied
  | immediate
  | zeroPage
  | zeroPageX
  | zeroPageY
  | relative
  | absolute
  | absoluteX
  | absoluteY
  | indirect
  | indirectX
  | indirectY
deriving DecidableEq, Repr

/-- An addressing mode with the operand bytes it consumes (R71): a byte, or the little-endian operand word. -/
inductive Form where
  | implied
  | immediate (v : Byte)
  | zeroPage (b : Byte)
  | zeroPageX (b : Byte)
  | zeroPageY (b : Byte)
  | relative (d : Byte)
  | absolute (w : Word)
  | absoluteX (w : Word)
  | absoluteY (w : Word)
  | indirect (w : Word)
  | indirectX (b : Byte)
  | indirectY (b : Byte)
deriving DecidableEq, Repr

/-- The instructions, one constructor for each defined opcode (R75, R76). A suffix names the mode: `Imm` Immediate, `Zp` ZeroPage,
`ZpX` and `ZpY` its indexed forms, `Abs` Absolute, `AbsX` and `AbsY` its indexed forms, `Ind` Indirect, `IndX` IndirectX, `IndY`
IndirectY, `A` the accumulator form (R73). A mnemonic with a single mode has none. Arguments: `v` an immediate value, `b` a zero-page
address, `d` a displacement, `w` an operand word. -/
inductive Instr where
  | ldaImm (v : Byte)
  | ldaZp (b : Byte)
  | ldaZpX (b : Byte)
  | ldaAbs (w : Word)
  | ldaAbsX (w : Word)
  | ldaAbsY (w : Word)
  | ldaIndX (b : Byte)
  | ldaIndY (b : Byte)
  | ldxImm (v : Byte)
  | ldxZp (b : Byte)
  | ldxZpY (b : Byte)
  | ldxAbs (w : Word)
  | ldxAbsY (w : Word)
  | ldyImm (v : Byte)
  | ldyZp (b : Byte)
  | ldyZpX (b : Byte)
  | ldyAbs (w : Word)
  | ldyAbsX (w : Word)
  | staZp (b : Byte)
  | staZpX (b : Byte)
  | staAbs (w : Word)
  | staAbsX (w : Word)
  | staAbsY (w : Word)
  | staIndX (b : Byte)
  | staIndY (b : Byte)
  | stxZp (b : Byte)
  | stxZpY (b : Byte)
  | stxAbs (w : Word)
  | styZp (b : Byte)
  | styZpX (b : Byte)
  | styAbs (w : Word)
  | tax
  | txa
  | tay
  | tya
  | tsx
  | txs
  | pha
  | pla
  | php
  | plp
  | adcImm (v : Byte)
  | adcZp (b : Byte)
  | adcZpX (b : Byte)
  | adcAbs (w : Word)
  | adcAbsX (w : Word)
  | adcAbsY (w : Word)
  | adcIndX (b : Byte)
  | adcIndY (b : Byte)
  | sbcImm (v : Byte)
  | sbcZp (b : Byte)
  | sbcZpX (b : Byte)
  | sbcAbs (w : Word)
  | sbcAbsX (w : Word)
  | sbcAbsY (w : Word)
  | sbcIndX (b : Byte)
  | sbcIndY (b : Byte)
  | andImm (v : Byte)
  | andZp (b : Byte)
  | andZpX (b : Byte)
  | andAbs (w : Word)
  | andAbsX (w : Word)
  | andAbsY (w : Word)
  | andIndX (b : Byte)
  | andIndY (b : Byte)
  | oraImm (v : Byte)
  | oraZp (b : Byte)
  | oraZpX (b : Byte)
  | oraAbs (w : Word)
  | oraAbsX (w : Word)
  | oraAbsY (w : Word)
  | oraIndX (b : Byte)
  | oraIndY (b : Byte)
  | eorImm (v : Byte)
  | eorZp (b : Byte)
  | eorZpX (b : Byte)
  | eorAbs (w : Word)
  | eorAbsX (w : Word)
  | eorAbsY (w : Word)
  | eorIndX (b : Byte)
  | eorIndY (b : Byte)
  | bitZp (b : Byte)
  | bitAbs (w : Word)
  | aslA
  | aslZp (b : Byte)
  | aslZpX (b : Byte)
  | aslAbs (w : Word)
  | aslAbsX (w : Word)
  | lsrA
  | lsrZp (b : Byte)
  | lsrZpX (b : Byte)
  | lsrAbs (w : Word)
  | lsrAbsX (w : Word)
  | rolA
  | rolZp (b : Byte)
  | rolZpX (b : Byte)
  | rolAbs (w : Word)
  | rolAbsX (w : Word)
  | rorA
  | rorZp (b : Byte)
  | rorZpX (b : Byte)
  | rorAbs (w : Word)
  | rorAbsX (w : Word)
  | incZp (b : Byte)
  | incZpX (b : Byte)
  | incAbs (w : Word)
  | incAbsX (w : Word)
  | decZp (b : Byte)
  | decZpX (b : Byte)
  | decAbs (w : Word)
  | decAbsX (w : Word)
  | inx
  | dex
  | iny
  | dey
  | cmpImm (v : Byte)
  | cmpZp (b : Byte)
  | cmpZpX (b : Byte)
  | cmpAbs (w : Word)
  | cmpAbsX (w : Word)
  | cmpAbsY (w : Word)
  | cmpIndX (b : Byte)
  | cmpIndY (b : Byte)
  | cpxImm (v : Byte)
  | cpxZp (b : Byte)
  | cpxAbs (w : Word)
  | cpyImm (v : Byte)
  | cpyZp (b : Byte)
  | cpyAbs (w : Word)
  | bcc (d : Byte)
  | bcs (d : Byte)
  | beq (d : Byte)
  | bne (d : Byte)
  | bpl (d : Byte)
  | bmi (d : Byte)
  | bvc (d : Byte)
  | bvs (d : Byte)
  | jmpAbs (w : Word)
  | jmpInd (w : Word)
  | jsr (w : Word)
  | rts
  | rti
  | clc
  | sec
  | cli
  | sei
  | cld
  | sed
  | clv
  | nop
  | brk
deriving DecidableEq, Repr

end Sys2Proof
end

