-- ==== Sys2Proof/Decode.lean ====
section
/-! DEFINITION. The Dispatch Entry table (spec/30_encoding.md R72, R75, R76), the decoder over it, total on any bytes, and after it
the encoder, written from the same tables of the spec. R75 and R76 are general knowledge (UNVERIFIED, unsafe: log entry 10). -/

namespace Sys2Proof

open Sys2Proof.Machine (word lo8 hi8)

/-- How the operand bytes after an opcode make the instruction (R71): none (F1), one byte (F2), or a little-endian word (F3). -/
inductive Build where
  | plain (i : Instr)
  | byte (f : Byte → Instr)
  | word (f : Word → Instr)

/-- A Dispatch Entry (R72): "opcode byte → (mnemonic identifier, Addressing Mode, base cycle count)", with the instruction it makes. -/
structure Row where
  opcode : Byte
  mnemonic : Mnemonic
  mode : Mode
  base : Nat
  build : Build

/-- Row 0x of R75's map, with R76's base cycle counts. -/
def dispatchRow0 : List Row :=
  [ ⟨0x00, .brk, .implied, 7, .plain .brk⟩
  , ⟨0x01, .ora, .indirectX, 6, .byte .oraIndX⟩
  , ⟨0x05, .ora, .zeroPage, 3, .byte .oraZp⟩
  , ⟨0x06, .asl, .zeroPage, 5, .byte .aslZp⟩
  , ⟨0x08, .php, .implied, 3, .plain .php⟩
  , ⟨0x09, .ora, .immediate, 2, .byte .oraImm⟩
  , ⟨0x0A, .asl, .implied, 2, .plain .aslA⟩
  , ⟨0x0D, .ora, .absolute, 4, .word .oraAbs⟩
  , ⟨0x0E, .asl, .absolute, 6, .word .aslAbs⟩ ]

/-- Row 1x of R75's map, with R76's base cycle counts. -/
def dispatchRow1 : List Row :=
  [ ⟨0x10, .bpl, .relative, 2, .byte .bpl⟩
  , ⟨0x11, .ora, .indirectY, 5, .byte .oraIndY⟩
  , ⟨0x15, .ora, .zeroPageX, 4, .byte .oraZpX⟩
  , ⟨0x16, .asl, .zeroPageX, 6, .byte .aslZpX⟩
  , ⟨0x18, .clc, .implied, 2, .plain .clc⟩
  , ⟨0x19, .ora, .absoluteY, 4, .word .oraAbsY⟩
  , ⟨0x1D, .ora, .absoluteX, 4, .word .oraAbsX⟩
  , ⟨0x1E, .asl, .absoluteX, 7, .word .aslAbsX⟩ ]

/-- Row 2x of R75's map, with R76's base cycle counts. -/
def dispatchRow2 : List Row :=
  [ ⟨0x20, .jsr, .absolute, 6, .word .jsr⟩
  , ⟨0x21, .and, .indirectX, 6, .byte .andIndX⟩
  , ⟨0x24, .bit, .zeroPage, 3, .byte .bitZp⟩
  , ⟨0x25, .and, .zeroPage, 3, .byte .andZp⟩
  , ⟨0x26, .rol, .zeroPage, 5, .byte .rolZp⟩
  , ⟨0x28, .plp, .implied, 4, .plain .plp⟩
  , ⟨0x29, .and, .immediate, 2, .byte .andImm⟩
  , ⟨0x2A, .rol, .implied, 2, .plain .rolA⟩
  , ⟨0x2C, .bit, .absolute, 4, .word .bitAbs⟩
  , ⟨0x2D, .and, .absolute, 4, .word .andAbs⟩
  , ⟨0x2E, .rol, .absolute, 6, .word .rolAbs⟩ ]

/-- Row 3x of R75's map, with R76's base cycle counts. -/
def dispatchRow3 : List Row :=
  [ ⟨0x30, .bmi, .relative, 2, .byte .bmi⟩
  , ⟨0x31, .and, .indirectY, 5, .byte .andIndY⟩
  , ⟨0x35, .and, .zeroPageX, 4, .byte .andZpX⟩
  , ⟨0x36, .rol, .zeroPageX, 6, .byte .rolZpX⟩
  , ⟨0x38, .sec, .implied, 2, .plain .sec⟩
  , ⟨0x39, .and, .absoluteY, 4, .word .andAbsY⟩
  , ⟨0x3D, .and, .absoluteX, 4, .word .andAbsX⟩
  , ⟨0x3E, .rol, .absoluteX, 7, .word .rolAbsX⟩ ]

/-- Row 4x of R75's map, with R76's base cycle counts. -/
def dispatchRow4 : List Row :=
  [ ⟨0x40, .rti, .implied, 6, .plain .rti⟩
  , ⟨0x41, .eor, .indirectX, 6, .byte .eorIndX⟩
  , ⟨0x45, .eor, .zeroPage, 3, .byte .eorZp⟩
  , ⟨0x46, .lsr, .zeroPage, 5, .byte .lsrZp⟩
  , ⟨0x48, .pha, .implied, 3, .plain .pha⟩
  , ⟨0x49, .eor, .immediate, 2, .byte .eorImm⟩
  , ⟨0x4A, .lsr, .implied, 2, .plain .lsrA⟩
  , ⟨0x4C, .jmp, .absolute, 3, .word .jmpAbs⟩
  , ⟨0x4D, .eor, .absolute, 4, .word .eorAbs⟩
  , ⟨0x4E, .lsr, .absolute, 6, .word .lsrAbs⟩ ]

/-- Row 5x of R75's map, with R76's base cycle counts. -/
def dispatchRow5 : List Row :=
  [ ⟨0x50, .bvc, .relative, 2, .byte .bvc⟩
  , ⟨0x51, .eor, .indirectY, 5, .byte .eorIndY⟩
  , ⟨0x55, .eor, .zeroPageX, 4, .byte .eorZpX⟩
  , ⟨0x56, .lsr, .zeroPageX, 6, .byte .lsrZpX⟩
  , ⟨0x58, .cli, .implied, 2, .plain .cli⟩
  , ⟨0x59, .eor, .absoluteY, 4, .word .eorAbsY⟩
  , ⟨0x5D, .eor, .absoluteX, 4, .word .eorAbsX⟩
  , ⟨0x5E, .lsr, .absoluteX, 7, .word .lsrAbsX⟩ ]

/-- Row 6x of R75's map, with R76's base cycle counts. -/
def dispatchRow6 : List Row :=
  [ ⟨0x60, .rts, .implied, 6, .plain .rts⟩
  , ⟨0x61, .adc, .indirectX, 6, .byte .adcIndX⟩
  , ⟨0x65, .adc, .zeroPage, 3, .byte .adcZp⟩
  , ⟨0x66, .ror, .zeroPage, 5, .byte .rorZp⟩
  , ⟨0x68, .pla, .implied, 4, .plain .pla⟩
  , ⟨0x69, .adc, .immediate, 2, .byte .adcImm⟩
  , ⟨0x6A, .ror, .implied, 2, .plain .rorA⟩
  , ⟨0x6C, .jmp, .indirect, 5, .word .jmpInd⟩
  , ⟨0x6D, .adc, .absolute, 4, .word .adcAbs⟩
  , ⟨0x6E, .ror, .absolute, 6, .word .rorAbs⟩ ]

/-- Row 7x of R75's map, with R76's base cycle counts. -/
def dispatchRow7 : List Row :=
  [ ⟨0x70, .bvs, .relative, 2, .byte .bvs⟩
  , ⟨0x71, .adc, .indirectY, 5, .byte .adcIndY⟩
  , ⟨0x75, .adc, .zeroPageX, 4, .byte .adcZpX⟩
  , ⟨0x76, .ror, .zeroPageX, 6, .byte .rorZpX⟩
  , ⟨0x78, .sei, .implied, 2, .plain .sei⟩
  , ⟨0x79, .adc, .absoluteY, 4, .word .adcAbsY⟩
  , ⟨0x7D, .adc, .absoluteX, 4, .word .adcAbsX⟩
  , ⟨0x7E, .ror, .absoluteX, 7, .word .rorAbsX⟩ ]

/-- Row 8x of R75's map, with R76's base cycle counts. -/
def dispatchRow8 : List Row :=
  [ ⟨0x81, .sta, .indirectX, 6, .byte .staIndX⟩
  , ⟨0x84, .sty, .zeroPage, 3, .byte .styZp⟩
  , ⟨0x85, .sta, .zeroPage, 3, .byte .staZp⟩
  , ⟨0x86, .stx, .zeroPage, 3, .byte .stxZp⟩
  , ⟨0x88, .dey, .implied, 2, .plain .dey⟩
  , ⟨0x8A, .txa, .implied, 2, .plain .txa⟩
  , ⟨0x8C, .sty, .absolute, 4, .word .styAbs⟩
  , ⟨0x8D, .sta, .absolute, 4, .word .staAbs⟩
  , ⟨0x8E, .stx, .absolute, 4, .word .stxAbs⟩ ]

/-- Row 9x of R75's map, with R76's base cycle counts. -/
def dispatchRow9 : List Row :=
  [ ⟨0x90, .bcc, .relative, 2, .byte .bcc⟩
  , ⟨0x91, .sta, .indirectY, 6, .byte .staIndY⟩
  , ⟨0x94, .sty, .zeroPageX, 4, .byte .styZpX⟩
  , ⟨0x95, .sta, .zeroPageX, 4, .byte .staZpX⟩
  , ⟨0x96, .stx, .zeroPageY, 4, .byte .stxZpY⟩
  , ⟨0x98, .tya, .implied, 2, .plain .tya⟩
  , ⟨0x99, .sta, .absoluteY, 5, .word .staAbsY⟩
  , ⟨0x9A, .txs, .implied, 2, .plain .txs⟩
  , ⟨0x9D, .sta, .absoluteX, 5, .word .staAbsX⟩ ]

/-- Row Ax of R75's map, with R76's base cycle counts. -/
def dispatchRowA : List Row :=
  [ ⟨0xA0, .ldy, .immediate, 2, .byte .ldyImm⟩
  , ⟨0xA1, .lda, .indirectX, 6, .byte .ldaIndX⟩
  , ⟨0xA2, .ldx, .immediate, 2, .byte .ldxImm⟩
  , ⟨0xA4, .ldy, .zeroPage, 3, .byte .ldyZp⟩
  , ⟨0xA5, .lda, .zeroPage, 3, .byte .ldaZp⟩
  , ⟨0xA6, .ldx, .zeroPage, 3, .byte .ldxZp⟩
  , ⟨0xA8, .tay, .implied, 2, .plain .tay⟩
  , ⟨0xA9, .lda, .immediate, 2, .byte .ldaImm⟩
  , ⟨0xAA, .tax, .implied, 2, .plain .tax⟩
  , ⟨0xAC, .ldy, .absolute, 4, .word .ldyAbs⟩
  , ⟨0xAD, .lda, .absolute, 4, .word .ldaAbs⟩
  , ⟨0xAE, .ldx, .absolute, 4, .word .ldxAbs⟩ ]

/-- Row Bx of R75's map, with R76's base cycle counts. -/
def dispatchRowB : List Row :=
  [ ⟨0xB0, .bcs, .relative, 2, .byte .bcs⟩
  , ⟨0xB1, .lda, .indirectY, 5, .byte .ldaIndY⟩
  , ⟨0xB4, .ldy, .zeroPageX, 4, .byte .ldyZpX⟩
  , ⟨0xB5, .lda, .zeroPageX, 4, .byte .ldaZpX⟩
  , ⟨0xB6, .ldx, .zeroPageY, 4, .byte .ldxZpY⟩
  , ⟨0xB8, .clv, .implied, 2, .plain .clv⟩
  , ⟨0xB9, .lda, .absoluteY, 4, .word .ldaAbsY⟩
  , ⟨0xBA, .tsx, .implied, 2, .plain .tsx⟩
  , ⟨0xBC, .ldy, .absoluteX, 4, .word .ldyAbsX⟩
  , ⟨0xBD, .lda, .absoluteX, 4, .word .ldaAbsX⟩
  , ⟨0xBE, .ldx, .absoluteY, 4, .word .ldxAbsY⟩ ]

/-- Row Cx of R75's map, with R76's base cycle counts. -/
def dispatchRowC : List Row :=
  [ ⟨0xC0, .cpy, .immediate, 2, .byte .cpyImm⟩
  , ⟨0xC1, .cmp, .indirectX, 6, .byte .cmpIndX⟩
  , ⟨0xC4, .cpy, .zeroPage, 3, .byte .cpyZp⟩
  , ⟨0xC5, .cmp, .zeroPage, 3, .byte .cmpZp⟩
  , ⟨0xC6, .dec, .zeroPage, 5, .byte .decZp⟩
  , ⟨0xC8, .iny, .implied, 2, .plain .iny⟩
  , ⟨0xC9, .cmp, .immediate, 2, .byte .cmpImm⟩
  , ⟨0xCA, .dex, .implied, 2, .plain .dex⟩
  , ⟨0xCC, .cpy, .absolute, 4, .word .cpyAbs⟩
  , ⟨0xCD, .cmp, .absolute, 4, .word .cmpAbs⟩
  , ⟨0xCE, .dec, .absolute, 6, .word .decAbs⟩ ]

/-- Row Dx of R75's map, with R76's base cycle counts. -/
def dispatchRowD : List Row :=
  [ ⟨0xD0, .bne, .relative, 2, .byte .bne⟩
  , ⟨0xD1, .cmp, .indirectY, 5, .byte .cmpIndY⟩
  , ⟨0xD5, .cmp, .zeroPageX, 4, .byte .cmpZpX⟩
  , ⟨0xD6, .dec, .zeroPageX, 6, .byte .decZpX⟩
  , ⟨0xD8, .cld, .implied, 2, .plain .cld⟩
  , ⟨0xD9, .cmp, .absoluteY, 4, .word .cmpAbsY⟩
  , ⟨0xDD, .cmp, .absoluteX, 4, .word .cmpAbsX⟩
  , ⟨0xDE, .dec, .absoluteX, 7, .word .decAbsX⟩ ]

/-- Row Ex of R75's map, with R76's base cycle counts. -/
def dispatchRowE : List Row :=
  [ ⟨0xE0, .cpx, .immediate, 2, .byte .cpxImm⟩
  , ⟨0xE1, .sbc, .indirectX, 6, .byte .sbcIndX⟩
  , ⟨0xE4, .cpx, .zeroPage, 3, .byte .cpxZp⟩
  , ⟨0xE5, .sbc, .zeroPage, 3, .byte .sbcZp⟩
  , ⟨0xE6, .inc, .zeroPage, 5, .byte .incZp⟩
  , ⟨0xE8, .inx, .implied, 2, .plain .inx⟩
  , ⟨0xE9, .sbc, .immediate, 2, .byte .sbcImm⟩
  , ⟨0xEA, .nop, .implied, 2, .plain .nop⟩
  , ⟨0xEC, .cpx, .absolute, 4, .word .cpxAbs⟩
  , ⟨0xED, .sbc, .absolute, 4, .word .sbcAbs⟩
  , ⟨0xEE, .inc, .absolute, 6, .word .incAbs⟩ ]

/-- Row Fx of R75's map, with R76's base cycle counts. -/
def dispatchRowF : List Row :=
  [ ⟨0xF0, .beq, .relative, 2, .byte .beq⟩
  , ⟨0xF1, .sbc, .indirectY, 5, .byte .sbcIndY⟩
  , ⟨0xF5, .sbc, .zeroPageX, 4, .byte .sbcZpX⟩
  , ⟨0xF6, .inc, .zeroPageX, 6, .byte .incZpX⟩
  , ⟨0xF8, .sed, .implied, 2, .plain .sed⟩
  , ⟨0xF9, .sbc, .absoluteY, 4, .word .sbcAbsY⟩
  , ⟨0xFD, .sbc, .absoluteX, 4, .word .sbcAbsX⟩
  , ⟨0xFE, .inc, .absoluteX, 7, .word .incAbsX⟩ ]

/-- The defined entries of the 256-entry Dispatch table (R72): 151 rows. -/
def dispatchTable : List Row :=
  dispatchRow0 ++ dispatchRow1 ++ dispatchRow2 ++ dispatchRow3 ++ dispatchRow4 ++ dispatchRow5 ++ dispatchRow6 ++ dispatchRow7 ++
  dispatchRow8 ++ dispatchRow9 ++ dispatchRowA ++ dispatchRowB ++ dispatchRowC ++ dispatchRowD ++ dispatchRowE ++ dispatchRowF

/-- `Dispatch[op]` (R82): "a pure table lookup". -/
def lookup (op : Byte) : Option Row := dispatchTable.find? (fun r => r.opcode == op)

/-- Why bytes decode to no instruction: too few of them, or an opcode byte with no Dispatch Entry (R77). -/
inductive DecodeError where
  | truncated
  | undefinedOpcode (op : Byte)
deriving DecidableEq, Repr

/-- Take the operand bytes (R71, R80), low byte of a word first (R56), and answer the instruction with the bytes after it. -/
def Build.take : Build → List Byte → Except DecodeError (Instr × List Byte)
  | .plain i, rest => .ok (i, rest)
  | .byte f, b :: rest => .ok (f b, rest)
  | .byte _, [] => .error .truncated
  | .word f, lo :: hi :: rest => .ok (f (Machine.word hi lo), rest)
  | .word _, _ => .error .truncated

/-- Decode one instruction from the front of a byte stream (R71, R80). -/
def decode : List Byte → Except DecodeError (Instr × List Byte)
  | [] => .error .truncated
  | op :: rest =>
    match lookup op with
    | none => .error (.undefinedOpcode op)
    | some row => row.build.take rest

/-- Byte `k` of an instruction numbered as spec/opcode_table.json numbers it, the bits from `nbits` up being 0. -/
def tableByte (nbits w k : Nat) : Byte := BitVec.ofNat 8 (w % 2 ^ nbits / 2 ^ (8 * k))

/-- The longest instruction's bytes (3, R71), as they lie in memory. -/
def tableBytes (nbits w : Nat) : List Byte := [tableByte nbits w 0, tableByte nbits w 1, tableByte nbits w 2]

/-- The instruction the decoder reads from an instruction whose bits are `w`. -/
def decodeTableWord (nbits w : Nat) : Option Instr :=
  match decode (tableBytes nbits w) with
  | .ok (i, _) => some i
  | .error _ => none

/-! ## The encoder, and the fields an instruction was written with -/

/-- The bytes of a word in address order: low byte first (R56). -/
def wordBytes (w : Word) : List Byte := [lo8 w, hi8 w]

/-- The bytes of an instruction (R71, R76). -/
def encode : Instr → List Byte
  | .ldaImm v => [0xA9, v]
  | .ldaZp b => [0xA5, b]
  | .ldaZpX b => [0xB5, b]
  | .ldaAbs w => 0xAD :: wordBytes w
  | .ldaAbsX w => 0xBD :: wordBytes w
  | .ldaAbsY w => 0xB9 :: wordBytes w
  | .ldaIndX b => [0xA1, b]
  | .ldaIndY b => [0xB1, b]
  | .ldxImm v => [0xA2, v]
  | .ldxZp b => [0xA6, b]
  | .ldxZpY b => [0xB6, b]
  | .ldxAbs w => 0xAE :: wordBytes w
  | .ldxAbsY w => 0xBE :: wordBytes w
  | .ldyImm v => [0xA0, v]
  | .ldyZp b => [0xA4, b]
  | .ldyZpX b => [0xB4, b]
  | .ldyAbs w => 0xAC :: wordBytes w
  | .ldyAbsX w => 0xBC :: wordBytes w
  | .staZp b => [0x85, b]
  | .staZpX b => [0x95, b]
  | .staAbs w => 0x8D :: wordBytes w
  | .staAbsX w => 0x9D :: wordBytes w
  | .staAbsY w => 0x99 :: wordBytes w
  | .staIndX b => [0x81, b]
  | .staIndY b => [0x91, b]
  | .stxZp b => [0x86, b]
  | .stxZpY b => [0x96, b]
  | .stxAbs w => 0x8E :: wordBytes w
  | .styZp b => [0x84, b]
  | .styZpX b => [0x94, b]
  | .styAbs w => 0x8C :: wordBytes w
  | .tax => [0xAA]
  | .txa => [0x8A]
  | .tay => [0xA8]
  | .tya => [0x98]
  | .tsx => [0xBA]
  | .txs => [0x9A]
  | .pha => [0x48]
  | .pla => [0x68]
  | .php => [0x08]
  | .plp => [0x28]
  | .adcImm v => [0x69, v]
  | .adcZp b => [0x65, b]
  | .adcZpX b => [0x75, b]
  | .adcAbs w => 0x6D :: wordBytes w
  | .adcAbsX w => 0x7D :: wordBytes w
  | .adcAbsY w => 0x79 :: wordBytes w
  | .adcIndX b => [0x61, b]
  | .adcIndY b => [0x71, b]
  | .sbcImm v => [0xE9, v]
  | .sbcZp b => [0xE5, b]
  | .sbcZpX b => [0xF5, b]
  | .sbcAbs w => 0xED :: wordBytes w
  | .sbcAbsX w => 0xFD :: wordBytes w
  | .sbcAbsY w => 0xF9 :: wordBytes w
  | .sbcIndX b => [0xE1, b]
  | .sbcIndY b => [0xF1, b]
  | .andImm v => [0x29, v]
  | .andZp b => [0x25, b]
  | .andZpX b => [0x35, b]
  | .andAbs w => 0x2D :: wordBytes w
  | .andAbsX w => 0x3D :: wordBytes w
  | .andAbsY w => 0x39 :: wordBytes w
  | .andIndX b => [0x21, b]
  | .andIndY b => [0x31, b]
  | .oraImm v => [0x09, v]
  | .oraZp b => [0x05, b]
  | .oraZpX b => [0x15, b]
  | .oraAbs w => 0x0D :: wordBytes w
  | .oraAbsX w => 0x1D :: wordBytes w
  | .oraAbsY w => 0x19 :: wordBytes w
  | .oraIndX b => [0x01, b]
  | .oraIndY b => [0x11, b]
  | .eorImm v => [0x49, v]
  | .eorZp b => [0x45, b]
  | .eorZpX b => [0x55, b]
  | .eorAbs w => 0x4D :: wordBytes w
  | .eorAbsX w => 0x5D :: wordBytes w
  | .eorAbsY w => 0x59 :: wordBytes w
  | .eorIndX b => [0x41, b]
  | .eorIndY b => [0x51, b]
  | .bitZp b => [0x24, b]
  | .bitAbs w => 0x2C :: wordBytes w
  | .aslA => [0x0A]
  | .aslZp b => [0x06, b]
  | .aslZpX b => [0x16, b]
  | .aslAbs w => 0x0E :: wordBytes w
  | .aslAbsX w => 0x1E :: wordBytes w
  | .lsrA => [0x4A]
  | .lsrZp b => [0x46, b]
  | .lsrZpX b => [0x56, b]
  | .lsrAbs w => 0x4E :: wordBytes w
  | .lsrAbsX w => 0x5E :: wordBytes w
  | .rolA => [0x2A]
  | .rolZp b => [0x26, b]
  | .rolZpX b => [0x36, b]
  | .rolAbs w => 0x2E :: wordBytes w
  | .rolAbsX w => 0x3E :: wordBytes w
  | .rorA => [0x6A]
  | .rorZp b => [0x66, b]
  | .rorZpX b => [0x76, b]
  | .rorAbs w => 0x6E :: wordBytes w
  | .rorAbsX w => 0x7E :: wordBytes w
  | .incZp b => [0xE6, b]
  | .incZpX b => [0xF6, b]
  | .incAbs w => 0xEE :: wordBytes w
  | .incAbsX w => 0xFE :: wordBytes w
  | .decZp b => [0xC6, b]
  | .decZpX b => [0xD6, b]
  | .decAbs w => 0xCE :: wordBytes w
  | .decAbsX w => 0xDE :: wordBytes w
  | .inx => [0xE8]
  | .dex => [0xCA]
  | .iny => [0xC8]
  | .dey => [0x88]
  | .cmpImm v => [0xC9, v]
  | .cmpZp b => [0xC5, b]
  | .cmpZpX b => [0xD5, b]
  | .cmpAbs w => 0xCD :: wordBytes w
  | .cmpAbsX w => 0xDD :: wordBytes w
  | .cmpAbsY w => 0xD9 :: wordBytes w
  | .cmpIndX b => [0xC1, b]
  | .cmpIndY b => [0xD1, b]
  | .cpxImm v => [0xE0, v]
  | .cpxZp b => [0xE4, b]
  | .cpxAbs w => 0xEC :: wordBytes w
  | .cpyImm v => [0xC0, v]
  | .cpyZp b => [0xC4, b]
  | .cpyAbs w => 0xCC :: wordBytes w
  | .bcc d => [0x90, d]
  | .bcs d => [0xB0, d]
  | .beq d => [0xF0, d]
  | .bne d => [0xD0, d]
  | .bpl d => [0x10, d]
  | .bmi d => [0x30, d]
  | .bvc d => [0x50, d]
  | .bvs d => [0x70, d]
  | .jmpAbs w => 0x4C :: wordBytes w
  | .jmpInd w => 0x6C :: wordBytes w
  | .jsr w => 0x20 :: wordBytes w
  | .rts => [0x60]
  | .rti => [0x40]
  | .clc => [0x18]
  | .sec => [0x38]
  | .cli => [0x58]
  | .sei => [0x78]
  | .cld => [0xD8]
  | .sed => [0xF8]
  | .clv => [0xB8]
  | .nop => [0xEA]
  | .brk => [0x00]

/-- The opcode byte of an instruction: the first byte of its encoding (R71). -/
def Instr.opcode (i : Instr) : Byte := (encode i).headD 0

/-- The mnemonic of an instruction (R76). -/
def Instr.mnemonic : Instr → Mnemonic
  | .ldaImm _ => .lda
  | .ldaZp _ => .lda
  | .ldaZpX _ => .lda
  | .ldaAbs _ => .lda
  | .ldaAbsX _ => .lda
  | .ldaAbsY _ => .lda
  | .ldaIndX _ => .lda
  | .ldaIndY _ => .lda
  | .ldxImm _ => .ldx
  | .ldxZp _ => .ldx
  | .ldxZpY _ => .ldx
  | .ldxAbs _ => .ldx
  | .ldxAbsY _ => .ldx
  | .ldyImm _ => .ldy
  | .ldyZp _ => .ldy
  | .ldyZpX _ => .ldy
  | .ldyAbs _ => .ldy
  | .ldyAbsX _ => .ldy
  | .staZp _ => .sta
  | .staZpX _ => .sta
  | .staAbs _ => .sta
  | .staAbsX _ => .sta
  | .staAbsY _ => .sta
  | .staIndX _ => .sta
  | .staIndY _ => .sta
  | .stxZp _ => .stx
  | .stxZpY _ => .stx
  | .stxAbs _ => .stx
  | .styZp _ => .sty
  | .styZpX _ => .sty
  | .styAbs _ => .sty
  | .tax => .tax
  | .txa => .txa
  | .tay => .tay
  | .tya => .tya
  | .tsx => .tsx
  | .txs => .txs
  | .pha => .pha
  | .pla => .pla
  | .php => .php
  | .plp => .plp
  | .adcImm _ => .adc
  | .adcZp _ => .adc
  | .adcZpX _ => .adc
  | .adcAbs _ => .adc
  | .adcAbsX _ => .adc
  | .adcAbsY _ => .adc
  | .adcIndX _ => .adc
  | .adcIndY _ => .adc
  | .sbcImm _ => .sbc
  | .sbcZp _ => .sbc
  | .sbcZpX _ => .sbc
  | .sbcAbs _ => .sbc
  | .sbcAbsX _ => .sbc
  | .sbcAbsY _ => .sbc
  | .sbcIndX _ => .sbc
  | .sbcIndY _ => .sbc
  | .andImm _ => .and
  | .andZp _ => .and
  | .andZpX _ => .and
  | .andAbs _ => .and
  | .andAbsX _ => .and
  | .andAbsY _ => .and
  | .andIndX _ => .and
  | .andIndY _ => .and
  | .oraImm _ => .ora
  | .oraZp _ => .ora
  | .oraZpX _ => .ora
  | .oraAbs _ => .ora
  | .oraAbsX _ => .ora
  | .oraAbsY _ => .ora
  | .oraIndX _ => .ora
  | .oraIndY _ => .ora
  | .eorImm _ => .eor
  | .eorZp _ => .eor
  | .eorZpX _ => .eor
  | .eorAbs _ => .eor
  | .eorAbsX _ => .eor
  | .eorAbsY _ => .eor
  | .eorIndX _ => .eor
  | .eorIndY _ => .eor
  | .bitZp _ => .bit
  | .bitAbs _ => .bit
  | .aslA => .asl
  | .aslZp _ => .asl
  | .aslZpX _ => .asl
  | .aslAbs _ => .asl
  | .aslAbsX _ => .asl
  | .lsrA => .lsr
  | .lsrZp _ => .lsr
  | .lsrZpX _ => .lsr
  | .lsrAbs _ => .lsr
  | .lsrAbsX _ => .lsr
  | .rolA => .rol
  | .rolZp _ => .rol
  | .rolZpX _ => .rol
  | .rolAbs _ => .rol
  | .rolAbsX _ => .rol
  | .rorA => .ror
  | .rorZp _ => .ror
  | .rorZpX _ => .ror
  | .rorAbs _ => .ror
  | .rorAbsX _ => .ror
  | .incZp _ => .inc
  | .incZpX _ => .inc
  | .incAbs _ => .inc
  | .incAbsX _ => .inc
  | .decZp _ => .dec
  | .decZpX _ => .dec
  | .decAbs _ => .dec
  | .decAbsX _ => .dec
  | .inx => .inx
  | .dex => .dex
  | .iny => .iny
  | .dey => .dey
  | .cmpImm _ => .cmp
  | .cmpZp _ => .cmp
  | .cmpZpX _ => .cmp
  | .cmpAbs _ => .cmp
  | .cmpAbsX _ => .cmp
  | .cmpAbsY _ => .cmp
  | .cmpIndX _ => .cmp
  | .cmpIndY _ => .cmp
  | .cpxImm _ => .cpx
  | .cpxZp _ => .cpx
  | .cpxAbs _ => .cpx
  | .cpyImm _ => .cpy
  | .cpyZp _ => .cpy
  | .cpyAbs _ => .cpy
  | .bcc _ => .bcc
  | .bcs _ => .bcs
  | .beq _ => .beq
  | .bne _ => .bne
  | .bpl _ => .bpl
  | .bmi _ => .bmi
  | .bvc _ => .bvc
  | .bvs _ => .bvs
  | .jmpAbs _ => .jmp
  | .jmpInd _ => .jmp
  | .jsr _ => .jsr
  | .rts => .rts
  | .rti => .rti
  | .clc => .clc
  | .sec => .sec
  | .cli => .cli
  | .sei => .sei
  | .cld => .cld
  | .sed => .sed
  | .clv => .clv
  | .nop => .nop
  | .brk => .brk

/-- The addressing mode and operand of an instruction (R73, R76). -/
def Instr.form : Instr → Form
  | .ldaImm v => .immediate v
  | .ldaZp b => .zeroPage b
  | .ldaZpX b => .zeroPageX b
  | .ldaAbs w => .absolute w
  | .ldaAbsX w => .absoluteX w
  | .ldaAbsY w => .absoluteY w
  | .ldaIndX b => .indirectX b
  | .ldaIndY b => .indirectY b
  | .ldxImm v => .immediate v
  | .ldxZp b => .zeroPage b
  | .ldxZpY b => .zeroPageY b
  | .ldxAbs w => .absolute w
  | .ldxAbsY w => .absoluteY w
  | .ldyImm v => .immediate v
  | .ldyZp b => .zeroPage b
  | .ldyZpX b => .zeroPageX b
  | .ldyAbs w => .absolute w
  | .ldyAbsX w => .absoluteX w
  | .staZp b => .zeroPage b
  | .staZpX b => .zeroPageX b
  | .staAbs w => .absolute w
  | .staAbsX w => .absoluteX w
  | .staAbsY w => .absoluteY w
  | .staIndX b => .indirectX b
  | .staIndY b => .indirectY b
  | .stxZp b => .zeroPage b
  | .stxZpY b => .zeroPageY b
  | .stxAbs w => .absolute w
  | .styZp b => .zeroPage b
  | .styZpX b => .zeroPageX b
  | .styAbs w => .absolute w
  | .tax => .implied
  | .txa => .implied
  | .tay => .implied
  | .tya => .implied
  | .tsx => .implied
  | .txs => .implied
  | .pha => .implied
  | .pla => .implied
  | .php => .implied
  | .plp => .implied
  | .adcImm v => .immediate v
  | .adcZp b => .zeroPage b
  | .adcZpX b => .zeroPageX b
  | .adcAbs w => .absolute w
  | .adcAbsX w => .absoluteX w
  | .adcAbsY w => .absoluteY w
  | .adcIndX b => .indirectX b
  | .adcIndY b => .indirectY b
  | .sbcImm v => .immediate v
  | .sbcZp b => .zeroPage b
  | .sbcZpX b => .zeroPageX b
  | .sbcAbs w => .absolute w
  | .sbcAbsX w => .absoluteX w
  | .sbcAbsY w => .absoluteY w
  | .sbcIndX b => .indirectX b
  | .sbcIndY b => .indirectY b
  | .andImm v => .immediate v
  | .andZp b => .zeroPage b
  | .andZpX b => .zeroPageX b
  | .andAbs w => .absolute w
  | .andAbsX w => .absoluteX w
  | .andAbsY w => .absoluteY w
  | .andIndX b => .indirectX b
  | .andIndY b => .indirectY b
  | .oraImm v => .immediate v
  | .oraZp b => .zeroPage b
  | .oraZpX b => .zeroPageX b
  | .oraAbs w => .absolute w
  | .oraAbsX w => .absoluteX w
  | .oraAbsY w => .absoluteY w
  | .oraIndX b => .indirectX b
  | .oraIndY b => .indirectY b
  | .eorImm v => .immediate v
  | .eorZp b => .zeroPage b
  | .eorZpX b => .zeroPageX b
  | .eorAbs w => .absolute w
  | .eorAbsX w => .absoluteX w
  | .eorAbsY w => .absoluteY w
  | .eorIndX b => .indirectX b
  | .eorIndY b => .indirectY b
  | .bitZp b => .zeroPage b
  | .bitAbs w => .absolute w
  | .aslA => .implied
  | .aslZp b => .zeroPage b
  | .aslZpX b => .zeroPageX b
  | .aslAbs w => .absolute w
  | .aslAbsX w => .absoluteX w
  | .lsrA => .implied
  | .lsrZp b => .zeroPage b
  | .lsrZpX b => .zeroPageX b
  | .lsrAbs w => .absolute w
  | .lsrAbsX w => .absoluteX w
  | .rolA => .implied
  | .rolZp b => .zeroPage b
  | .rolZpX b => .zeroPageX b
  | .rolAbs w => .absolute w
  | .rolAbsX w => .absoluteX w
  | .rorA => .implied
  | .rorZp b => .zeroPage b
  | .rorZpX b => .zeroPageX b
  | .rorAbs w => .absolute w
  | .rorAbsX w => .absoluteX w
  | .incZp b => .zeroPage b
  | .incZpX b => .zeroPageX b
  | .incAbs w => .absolute w
  | .incAbsX w => .absoluteX w
  | .decZp b => .zeroPage b
  | .decZpX b => .zeroPageX b
  | .decAbs w => .absolute w
  | .decAbsX w => .absoluteX w
  | .inx => .implied
  | .dex => .implied
  | .iny => .implied
  | .dey => .implied
  | .cmpImm v => .immediate v
  | .cmpZp b => .zeroPage b
  | .cmpZpX b => .zeroPageX b
  | .cmpAbs w => .absolute w
  | .cmpAbsX w => .absoluteX w
  | .cmpAbsY w => .absoluteY w
  | .cmpIndX b => .indirectX b
  | .cmpIndY b => .indirectY b
  | .cpxImm v => .immediate v
  | .cpxZp b => .zeroPage b
  | .cpxAbs w => .absolute w
  | .cpyImm v => .immediate v
  | .cpyZp b => .zeroPage b
  | .cpyAbs w => .absolute w
  | .bcc d => .relative d
  | .bcs d => .relative d
  | .beq d => .relative d
  | .bne d => .relative d
  | .bpl d => .relative d
  | .bmi d => .relative d
  | .bvc d => .relative d
  | .bvs d => .relative d
  | .jmpAbs w => .absolute w
  | .jmpInd w => .indirect w
  | .jsr w => .absolute w
  | .rts => .implied
  | .rti => .implied
  | .clc => .implied
  | .sec => .implied
  | .cli => .implied
  | .sei => .implied
  | .cld => .implied
  | .sed => .implied
  | .clv => .implied
  | .nop => .implied
  | .brk => .implied

/-- The mode tag of an operand. -/
def Form.mode : Form → Mode
  | .implied => .implied
  | .immediate _ => .immediate
  | .zeroPage _ => .zeroPage
  | .zeroPageX _ => .zeroPageX
  | .zeroPageY _ => .zeroPageY
  | .relative _ => .relative
  | .absolute _ => .absolute
  | .absoluteX _ => .absoluteX
  | .absoluteY _ => .absoluteY
  | .indirect _ => .indirect
  | .indirectX _ => .indirectX
  | .indirectY _ => .indirectY

/-- "Bytes consumed": the number of operand bytes of a mode (R71). -/
def Mode.operandBytes : Mode → Nat
  | .implied => 0
  | .immediate | .zeroPage | .zeroPageX | .zeroPageY | .relative | .indirectX | .indirectY => 1
  | .absolute | .absoluteX | .absoluteY | .indirect => 2

/-- The length of an instruction: "1 + the 'Bytes consumed' of the mode" (R80). -/
def Instr.length (i : Instr) : Nat := 1 + i.form.mode.operandBytes

end Sys2Proof
end

