-- ==== Sys2Proof/Machine/Timing.lean ====
section
/-! DEFINITION. The tick charge of an instruction (spec/70_reset_and_hazards.md R354-R357). -/

namespace Sys2Proof.Machine

/-- A read-class mnemonic (R16): its memory operand is only read, and it pays the page-cross tick (R355). -/
def isReadClass : Mnemonic → Bool
  | .adc | .and | .bit | .cmp | .cpx | .cpy | .eor | .lda | .ldx | .ldy | .ora | .sbc => true
  | _ => false

/-- A branch (R230). -/
def isBranch : Mnemonic → Bool
  | .bcc | .bcs | .beq | .bne | .bpl | .bmi | .bvc | .bvs => true
  | _ => false

/-- The modes whose page cross can cost a tick (R354). -/
def isPageCrossMode : Mode → Bool
  | .absoluteX | .absoluteY | .indirectY => true
  | _ => false

/-- The ticks beyond the base count (R354): R355's page-cross tick and R356's branch ticks. -/
def extraTicks (mn : Mnemonic) (mode : Mode) (taken crossed : Bool) : Nat :=
  (if isReadClass mn && isPageCrossMode mode && crossed then 1 else 0) + (if isBranch mn && taken then 1 + bit crossed else 0)

/-- `Cycles(op, taken, crossed)` (R354), for a defined opcode. -/
def cycles (op : Byte) (taken crossed : Bool) : Nat :=
  match lookup op with
  | some row => row.base + extraTicks row.mnemonic row.mode taken crossed
  | none => 0

/-- The ticks of the Reset, NMI and IRQ sequences (R357). -/
def sequenceTicks : Nat := 7

end Sys2Proof.Machine
end

