-- ==== Sys2Proof/Machine/Ops.lean ====
section
/-! DEFINITION. The named operations over registers, memory and the bus (spec/20_memory.md R50-R59, spec/10_state.md R22-R31); errors
(spec/60_exceptions.md R300-R304); the interrupt sequencer (R313), the return from interrupt (spec/45_control_transfer.md R243), and
the Reset sequence (spec/70_reset_and_hazards.md R340). -/

namespace Sys2Proof.Machine

/-! ## One field at a time -/

/-- `A <- v`. -/
def State.setA (s : State) (v : Byte) : State := { s with a := v }
/-- `X <- v`. -/
def State.setX (s : State) (v : Byte) : State := { s with x := v }
/-- `Y <- v`. -/
def State.setY (s : State) (v : Byte) : State := { s with y := v }
/-- `SP <- v`. -/
def State.setSP (s : State) (v : Byte) : State := { s with sp := v }
/-- `PC <- w`. -/
def State.setPC (s : State) (w : Word) : State := { s with pc := w }
/-- Write the flags. -/
def State.setFlags (s : State) (f : Flags) : State := { s with flags := f }
/-- `fsm <- q`. -/
def State.setFsm (s : State) (q : Fsm) : State := { s with fsm := q }
/-- `reset_pending <- b`. -/
def State.setResetPending (s : State) (b : Bool) : State := { s with resetPending := b }
/-- `nmi_pending <- b`. -/
def State.setNmiPending (s : State) (b : Bool) : State := { s with nmiPending := b }
/-- `irq_line <- b`. -/
def State.setIrqLine (s : State) (b : Bool) : State := { s with irqLine := b }
/-- The bytes behind the bus. -/
def State.setMem (s : State) (m : Memory) : State := { s with mem := m }
/-- A bus event happens (R53, R54). -/
def State.record (s : State) (e : BusEvent) : State := { s with trace := e :: s.trace }
/-- `Tick(n)` (R55): `n` calls of `tick()`. A Step charges its total at its end (DESIGN CHOICE, safe: log entry 9). -/
def State.tick (s : State) (n : Nat) : State := { s with cycles := s.cycles + n }

/-! ## Memory -/

/-- What an address that nothing has written reads as (DESIGN CHOICE, unsafe: log entry 5). -/
def Memory.unlisted : Byte := 0x00

/-- The byte at an address. -/
def Memory.read : Memory → Nat → Byte
  | [], _ => Memory.unlisted
  | (k, b) :: m, n => if k = n then b else Memory.read m n

/-- Write a byte, keeping the canonical form: the value an unlisted address reads as is not listed. -/
def Memory.write : Memory → Nat → Byte → Memory
  | [], n, v => if v = Memory.unlisted then [] else [(n, v)]
  | (k, b) :: m, n, v =>
    if n < k then (if v = Memory.unlisted then (k, b) :: m else (n, v) :: (k, b) :: m)
    else if n = k then (if v = Memory.unlisted then m else (n, v) :: m)
    else (k, b) :: Memory.write m n v

/-- The canonical form: addresses of the 65536-byte space (R50), strictly rising, no entry equal to `Memory.unlisted`. -/
def Memory.wf (m : Memory) : Bool :=
  decide (m.Pairwise (fun c d => c.1 < d.1)) && m.all (fun c => decide (c.1 < 65536) && c.2 != Memory.unlisted)

/-! ## The bus -/

/-- Whether an address lies in an I/O region. -/
def IoRegion.covers (r : IoRegion) (addr : Word) : Bool := decide (r.first ≤ addr) && decide (addr ≤ r.last)

/-- Whether the bus oracle answers an address (R52). -/
def isIo (c : Config) (addr : Word) : Bool := c.io.any (fun r => IoRegion.covers r addr)

/-- The byte the bus answers to a read now (R52): of RAM its content, of an I/O region the oracle's answer to the history. -/
def State.answer (s : State) (addr : Word) : Byte :=
  if isIo s.cfg addr then Config.busAnswer s.trace addr else Memory.read s.mem addr.toNat

/-- `MemRead(addr, 1)` (R53). -/
def busRead (addr : Word) (s : State) : Byte × State := (s.answer addr, s.record (.read addr (s.answer addr)))

/-- `MemWrite(addr, 1, v)` (R54): the event, and the byte where the address is RAM (R52). -/
def busWrite (addr : Word) (v : Byte) (s : State) : State :=
  let t := s.record (.write addr v)
  if isIo s.cfg addr then t else t.setMem (Memory.write s.mem addr.toNat v)

/-- The effect of fetching an instruction byte that the bus answers with `v` (R22, R23): one read at PC, and PC moves on. -/
def consume (v : Byte) (s : State) : State := (s.record (.read s.pc v)).setPC (s.pc + 1)

/-- `Fetch8()` (R23). -/
def fetch8 (s : State) : Byte × State := (s.answer s.pc, consume (s.answer s.pc) s)

/-- The effect of `Fetch16()` (R23): the low byte of the operand word first. -/
def consumeWord (w : Word) (s : State) : State := consume (hi8 w) (consume (lo8 w) s)

/-! ## The stack -/

/-- The address a stack pointer names, in the page 0x0100-0x01FF (R30). -/
def stackAddr (sp : Byte) : Word := 0x0100 + sp.setWidth 16

/-- `Push(v)` (R30): write, then decrement. -/
def push (v : Byte) (s : State) : State := (busWrite (stackAddr s.sp) v s).setSP (s.sp - 1)

/-- `Pull()` (R30): increment, then read. -/
def pull (s : State) : Byte × State := busRead (stackAddr (s.sp + 1)) (s.setSP (s.sp + 1))

/-! ## Errors -/

/-- The state an error leaves (R300-R302): one tick charged since the opcode fetch, and `fsm` is `Faulted`. -/
def failed (e : StepError) (s : State) : State := (s.tick 1).setFsm (.faulted e)

/-- What a Step answers that ends in an error and leaves the state `s` (R17). -/
def report : StepError → State → Result
  | .unimplementedOpcode op pc, s => .fault (.unimplementedOpcode op pc s)
  | .invalidAddressingMode, s => .fault (.invalidAddressingMode s)
  | .decimalUnmodelled, s => .refused (.decimalUnmodelled s)

/-- End a Step with an error, from the state after its opcode fetch (R300-R302). -/
def raiseError (e : StepError) (s : State) : Result := report e (failed e s)

/-! ## Taking an interrupt, and returning from one -/

/-- The interrupt kinds that push state (R310, R313). -/
inductive InterruptKind where
  | nmi
  | irq
  | brk
deriving DecidableEq, Repr

/-- The vector of a kind (R310, R314). -/
def vectorOf : InterruptKind → Word
  | .nmi => 0xFFFA
  | .irq => 0xFFFE
  | .brk => 0xFFFE

/-- The Reset vector (R314). -/
def resetVector : Word := 0xFFFC

/-- The pushed B bit of a kind (R315). A real NMOS 6502 pushes 0 for an IRQ (UNVERIFIED, unsafe for a chip: log entry 11). -/
def breakBit : InterruptKind → Bool
  | .nmi => false
  | .irq => true
  | .brk => true

/-- `PC <- ` the word at a vector, low byte first (R313, R340). -/
def loadVector (vec : Word) (s : State) : State :=
  let lo := busRead vec s
  let hi := busRead (vec + 1) lo.2
  hi.2.setPC (word hi.1 lo.1)

/-- `InterruptSequence(k)` (R313): push PC high byte, PC low byte and the status byte; set I; load PC from the kind's vector. -/
def interruptSequence (k : InterruptKind) (s : State) : State :=
  let pushed := push (pushedP s.flags (breakBit k)) (push (lo8 s.pc) (push (hi8 s.pc) s))
  (loadVector (vectorOf k) (pushed.setFlags { s.flags with i := true })).setFsm .running

/-- Pull the status byte (R164, R243): the six flags from it. -/
def pullFlags (s : State) : State :=
  let q := pull s
  q.2.setFlags (flagsOfByte q.1)

/-- Pull a return address, low byte first (R242, R243), and move it by `k` into PC. -/
def pullPC (k : Word) (s : State) : State :=
  let lo := pull s
  let hi := pull lo.2
  hi.2.setPC (word hi.1 lo.1 + k)

/-- The return from an interrupt (R243, R320): the flags, then PC with no + 1. -/
def returnFromInterrupt (s : State) : State := pullPC 0 (pullFlags s)

/-- `ResetSequence()` (R340): the registers and flags to their reset values, both pending requests cleared, PC from the Reset
vector, `fsm` running, 7 ticks. `irq_line` stays as the host drives it (R341). -/
def resetSequence (s : State) : State :=
  let regs := ((((s.setA 0x00).setX 0x00).setY 0x00).setSP 0xFD).setFlags resetFlags
  let clear := (regs.setResetPending false).setNmiPending false
  ((loadVector resetVector clear).setFsm .running).tick sequenceTicks

end Sys2Proof.Machine
end

