-- ==== Sys2Proof/Machine/Operands.lean ====
section
/-! DEFINITION. The addressing-mode decoder, "the Resolver" (spec/40_addressing_modes.md R100-R114), and the shared handlers over the
operands it gives. A handler runs in the state after the opcode fetch (spec/30_encoding.md R82): the operand bytes, which the
instruction carries, are consumed here, each by its one bus read (R115). -/

namespace Sys2Proof.Machine

/-- What `Resolve` returns (R100). -/
inductive Operand where
  | none
  | imm (v : Byte)
  | addr (ea : Word)
  | target (t : Word)
deriving DecidableEq, Repr

/-- `Resolve`'s operand, its page-cross bit, and the state after its bus reads (R100). -/
structure Resolved where
  operand : Operand
  crossed : Bool
  state : State

/-- Implied (R101). -/
def resolveImplied (s : State) : Resolved := ⟨.none, false, s⟩

/-- Immediate (R102). -/
def resolveImmediate (v : Byte) (s : State) : Resolved := ⟨.imm v, false, consume v s⟩

/-- ZeroPage (R103). -/
def resolveZeroPage (b : Byte) (s : State) : Resolved := ⟨.addr (word 0x00 b), false, consume b s⟩

/-- ZeroPageX (R104): the sum stays in the zero page. -/
def resolveZeroPageX (b : Byte) (s : State) : Resolved := ⟨.addr (word 0x00 (b + s.x)), false, consume b s⟩

/-- ZeroPageY (R105). -/
def resolveZeroPageY (b : Byte) (s : State) : Resolved := ⟨.addr (word 0x00 (b + s.y)), false, consume b s⟩

/-- Relative (R106): the target from the address of the next instruction. -/
def resolveRelative (d : Byte) (s : State) : Resolved :=
  let t := consume d s
  let target := t.pc + sext16 d
  ⟨.target target, pageDiffers t.pc target, t⟩

/-- Absolute (R107). -/
def resolveAbsolute (w : Word) (s : State) : Resolved := ⟨.addr w, false, consumeWord w s⟩

/-- An operand word plus an index register (R108, R109): a 16-bit add that wraps. -/
def resolveIndexed (w : Word) (index : Byte) (s : State) : Resolved :=
  let ea := w + index.setWidth 16
  ⟨.addr ea, pageDiffers w ea, consumeWord w s⟩

/-- AbsoluteX (R108). -/
def resolveAbsoluteX (w : Word) (s : State) : Resolved := resolveIndexed w s.x s

/-- AbsoluteY (R109). -/
def resolveAbsoluteY (w : Word) (s : State) : Resolved := resolveIndexed w s.y s

/-- A 16-bit pointer read from two addresses, low byte first (R110-R112), and the state after the two reads. -/
def readPointer (loAddr hiAddr : Word) (s : State) : Word × State :=
  let lo := busRead loAddr s
  let hi := busRead hiAddr lo.2
  (word hi.1 lo.1, hi.2)

/-- Indirect (R110): the high byte of the target comes from the same page as the low byte. -/
def resolveIndirect (p : Word) (s : State) : Resolved :=
  let q := readPointer p (word (hi8 p) (lo8 p + 1)) (consumeWord p s)
  ⟨.target q.1, false, q.2⟩

/-- IndirectX (R111): a zero-page pointer indexed by X, wrapping within the zero page. -/
def resolveIndirectX (b : Byte) (s : State) : Resolved :=
  let z := b + s.x
  let q := readPointer (word 0x00 z) (word 0x00 (z + 1)) (consume b s)
  ⟨.addr q.1, false, q.2⟩

/-- IndirectY (R112): the base from a zero-page pointer, plus Y over 16 bits. -/
def resolveIndirectY (b : Byte) (s : State) : Resolved :=
  let q := readPointer (word 0x00 b) (word 0x00 (b + 1)) (consume b s)
  let ea := q.1 + s.y.setWidth 16
  ⟨.addr ea, pageDiffers q.1 ea, q.2⟩

/-- `Resolve(mode)` (R100). -/
def resolve : Form → State → Resolved
  | .implied, s => resolveImplied s
  | .immediate v, s => resolveImmediate v s
  | .zeroPage b, s => resolveZeroPage b s
  | .zeroPageX b, s => resolveZeroPageX b s
  | .zeroPageY b, s => resolveZeroPageY b s
  | .relative d, s => resolveRelative d s
  | .absolute w, s => resolveAbsolute w s
  | .absoluteX w, s => resolveAbsoluteX w s
  | .absoluteY w, s => resolveAbsoluteY w s
  | .indirect p, s => resolveIndirect p s
  | .indirectX b, s => resolveIndirectX b s
  | .indirectY b, s => resolveIndirectY b s

/-- `ReadOperand(o)` (R114); `none` where the call would be `InvalidAddressingMode`. -/
def readOperand : Operand → State → Option (Byte × State)
  | .imm v, s => some (v, s)
  | .addr ea, s => some (busRead ea s)
  | .none, _ => none
  | .target _, _ => none

/-- `WriteOperand(o, v)` (R114); `none` where the call would be `InvalidAddressingMode`. -/
def writeOperand : Operand → Byte → State → Option State
  | .addr ea, v, s => some (busWrite ea v s)
  | .imm _, _, _ => none
  | .none, _, _ => none
  | .target _, _, _ => none

/-! ## Shared handlers -/

/-- An instruction with no operand byte (R101): its effect `f`, then the ticks of its opcode. -/
def impliedClass (op : Byte) (f : State → State) (s : State) : Result := .next ((f s).tick (cycles op false false))

/-- A read-class instruction (R16, R180): resolve, read the operand, then the effect `f` of the byte read. -/
def readClass (op : Byte) (form : Form) (f : Byte → State → State) (s : State) : Result :=
  let q := resolve form s
  match readOperand q.operand q.state with
  | some (m, t) => .next ((f m t).tick (cycles op false q.crossed))
  | none => raiseError .invalidAddressingMode s

/-- A store (R134-R136): resolve, write `v`; the target is not read. -/
def storeClass (op : Byte) (form : Form) (v : Byte) (s : State) : Result :=
  let q := resolve form s
  match writeOperand q.operand v q.state with
  | some t => .next (t.tick (cycles op false q.crossed))
  | none => raiseError .invalidAddressingMode s

/-- The accumulator form of a read-modify-write instruction (R200, R73): `A <- f(A)`. -/
def modifyA (f : Byte → Flags → Modified) (s : State) : State := (s.setFlags (f s.a s.flags).flags).setA (f s.a s.flags).r

/-- The memory form of a read-modify-write instruction (R200): one read, then one write, both at the effective address. -/
def rmwClass (op : Byte) (form : Form) (f : Byte → Flags → Modified) (s : State) : Result :=
  let q := resolve form s
  match readOperand q.operand q.state with
  | some (m, t) =>
    match writeOperand q.operand (f m t.flags).r (t.setFlags (f m t.flags).flags) with
    | some u => .next (u.tick (cycles op false q.crossed))
    | none => raiseError .invalidAddressingMode s
  | none => raiseError .invalidAddressingMode s

/-- `Branch(cond)` (R230). -/
def branchClass (op : Byte) (d : Byte) (cond : Bool) (s : State) : Result :=
  let q := resolve (.relative d) s
  match q.operand with
  | .target t => .next ((if cond then q.state.setPC t else q.state).tick (cycles op cond q.crossed))
  | _ => raiseError .invalidAddressingMode s

/-- `PC <- ` the resolved address (R240). -/
def jumpClass (op : Byte) (form : Form) (s : State) : Result :=
  let q := resolve form s
  match q.operand with
  | .addr w => .next ((q.state.setPC w).tick (cycles op false false))
  | .target t => .next ((q.state.setPC t).tick (cycles op false false))
  | _ => raiseError .invalidAddressingMode s

end Sys2Proof.Machine
end

