-- ==== Sys2Proof/Machine/LoadStore.lean ====
section
/-! DEFINITION. Load, store and transfer instructions (spec/41_load_store_transfer.md R131-R143). -/

namespace Sys2Proof.Machine

/-- "read operand, store into named register, update Z/N" (R131): the register A. -/
def loadA (v : Byte) (s : State) : State := (s.setA v).setFlags (setZN v s.flags)

/-- The register X (R132). -/
def loadX (v : Byte) (s : State) : State := (s.setX v).setFlags (setZN v s.flags)

/-- The register Y (R133). -/
def loadY (v : Byte) (s : State) : State := (s.setY v).setFlags (setZN v s.flags)

/-! ## Load -/

/-- LDA, opcode A9, Immediate (R131). -/
def execLdaImm (v : Byte) (s : State) : Result := readClass 0xA9 (.immediate v) loadA s

/-- LDA, opcode A5, ZeroPage (R131). -/
def execLdaZp (b : Byte) (s : State) : Result := readClass 0xA5 (.zeroPage b) loadA s

/-- LDA, opcode B5, ZeroPageX (R131). -/
def execLdaZpX (b : Byte) (s : State) : Result := readClass 0xB5 (.zeroPageX b) loadA s

/-- LDA, opcode AD, Absolute (R131). -/
def execLdaAbs (w : Word) (s : State) : Result := readClass 0xAD (.absolute w) loadA s

/-- LDA, opcode BD, AbsoluteX (R131). -/
def execLdaAbsX (w : Word) (s : State) : Result := readClass 0xBD (.absoluteX w) loadA s

/-- LDA, opcode B9, AbsoluteY (R131). -/
def execLdaAbsY (w : Word) (s : State) : Result := readClass 0xB9 (.absoluteY w) loadA s

/-- LDA, opcode A1, IndirectX (R131). -/
def execLdaIndX (b : Byte) (s : State) : Result := readClass 0xA1 (.indirectX b) loadA s

/-- LDA, opcode B1, IndirectY (R131). -/
def execLdaIndY (b : Byte) (s : State) : Result := readClass 0xB1 (.indirectY b) loadA s

/-- LDX, opcode A2, Immediate (R132). -/
def execLdxImm (v : Byte) (s : State) : Result := readClass 0xA2 (.immediate v) loadX s

/-- LDX, opcode A6, ZeroPage (R132). -/
def execLdxZp (b : Byte) (s : State) : Result := readClass 0xA6 (.zeroPage b) loadX s

/-- LDX, opcode B6, ZeroPageY (R132). -/
def execLdxZpY (b : Byte) (s : State) : Result := readClass 0xB6 (.zeroPageY b) loadX s

/-- LDX, opcode AE, Absolute (R132). -/
def execLdxAbs (w : Word) (s : State) : Result := readClass 0xAE (.absolute w) loadX s

/-- LDX, opcode BE, AbsoluteY (R132). -/
def execLdxAbsY (w : Word) (s : State) : Result := readClass 0xBE (.absoluteY w) loadX s

/-- LDY, opcode A0, Immediate (R133). -/
def execLdyImm (v : Byte) (s : State) : Result := readClass 0xA0 (.immediate v) loadY s

/-- LDY, opcode A4, ZeroPage (R133). -/
def execLdyZp (b : Byte) (s : State) : Result := readClass 0xA4 (.zeroPage b) loadY s

/-- LDY, opcode B4, ZeroPageX (R133). -/
def execLdyZpX (b : Byte) (s : State) : Result := readClass 0xB4 (.zeroPageX b) loadY s

/-- LDY, opcode AC, Absolute (R133). -/
def execLdyAbs (w : Word) (s : State) : Result := readClass 0xAC (.absolute w) loadY s

/-- LDY, opcode BC, AbsoluteX (R133). -/
def execLdyAbsX (w : Word) (s : State) : Result := readClass 0xBC (.absoluteX w) loadY s

/-! ## Store -/

/-- STA, opcode 85, ZeroPage (R134). -/
def execStaZp (b : Byte) (s : State) : Result := storeClass 0x85 (.zeroPage b) s.a s

/-- STA, opcode 95, ZeroPageX (R134). -/
def execStaZpX (b : Byte) (s : State) : Result := storeClass 0x95 (.zeroPageX b) s.a s

/-- STA, opcode 8D, Absolute (R134). -/
def execStaAbs (w : Word) (s : State) : Result := storeClass 0x8D (.absolute w) s.a s

/-- STA, opcode 9D, AbsoluteX (R134). -/
def execStaAbsX (w : Word) (s : State) : Result := storeClass 0x9D (.absoluteX w) s.a s

/-- STA, opcode 99, AbsoluteY (R134). -/
def execStaAbsY (w : Word) (s : State) : Result := storeClass 0x99 (.absoluteY w) s.a s

/-- STA, opcode 81, IndirectX (R134). -/
def execStaIndX (b : Byte) (s : State) : Result := storeClass 0x81 (.indirectX b) s.a s

/-- STA, opcode 91, IndirectY (R134). -/
def execStaIndY (b : Byte) (s : State) : Result := storeClass 0x91 (.indirectY b) s.a s

/-- STX, opcode 86, ZeroPage (R135). -/
def execStxZp (b : Byte) (s : State) : Result := storeClass 0x86 (.zeroPage b) s.x s

/-- STX, opcode 96, ZeroPageY (R135). -/
def execStxZpY (b : Byte) (s : State) : Result := storeClass 0x96 (.zeroPageY b) s.x s

/-- STX, opcode 8E, Absolute (R135). -/
def execStxAbs (w : Word) (s : State) : Result := storeClass 0x8E (.absolute w) s.x s

/-- STY, opcode 84, ZeroPage (R136). -/
def execStyZp (b : Byte) (s : State) : Result := storeClass 0x84 (.zeroPage b) s.y s

/-- STY, opcode 94, ZeroPageX (R136). -/
def execStyZpX (b : Byte) (s : State) : Result := storeClass 0x94 (.zeroPageX b) s.y s

/-- STY, opcode 8C, Absolute (R136). -/
def execStyAbs (w : Word) (s : State) : Result := storeClass 0x8C (.absolute w) s.y s

/-! ## Transfer -/

/-- TAX, opcode AA, Implied (R138). -/
def execTax (s : State) : Result := impliedClass 0xAA (fun t => loadX t.a t) s

/-- TXA, opcode 8A, Implied (R139). -/
def execTxa (s : State) : Result := impliedClass 0x8A (fun t => loadA t.x t) s

/-- TAY, opcode A8, Implied (R140). -/
def execTay (s : State) : Result := impliedClass 0xA8 (fun t => loadY t.a t) s

/-- TYA, opcode 98, Implied (R141). -/
def execTya (s : State) : Result := impliedClass 0x98 (fun t => loadA t.y t) s

/-- TSX, opcode BA, Implied (R142). -/
def execTsx (s : State) : Result := impliedClass 0xBA (fun t => loadX t.sp t) s

/-- TXS, opcode 9A, Implied (R143). -/
def execTxs (s : State) : Result := impliedClass 0x9A (fun t => t.setSP t.x) s

end Sys2Proof.Machine
end

