-- ==== Sys2Proof/Machine/Arithmetic.lean ====
section
/-! DEFINITION. Arithmetic and logic instructions (spec/43_arithmetic_logic.md R180-R189). -/

namespace Sys2Proof.Machine

/-- "A <- r; P.C <- c; P.V <- v; P.N <- n; P.Z <- z" (R182, R184). -/
def writeAlu (q : AluResult) (s : State) : State := (s.setA q.r).setFlags (q.setFlags s.flags)

/-- ADC's effect of the operand byte (R182). -/
def adcEffect (m : Byte) (s : State) : State := writeAlu (adcResult s.cfg.decimalMode s.flags.d s.a m s.flags.c) s

/-- SBC's effect of the operand byte (R184). -/
def sbcEffect (m : Byte) (s : State) : State := writeAlu (sbcResult s.cfg.decimalMode s.flags.d s.a m s.flags.c) s

/-- Whether an ADC or SBC is refused (R10, R302): D = 1 under `DECIMAL_MODE = Refuse`. -/
def decimalRefused (s : State) : Bool := s.flags.d && s.cfg.decimalMode == .refuse

/-- ADC and SBC: the refusal comes before the operand is resolved (R182, R184). -/
def decimalClass (op : Byte) (form : Form) (f : Byte → State → State) (s : State) : Result :=
  if decimalRefused s then raiseError .decimalUnmodelled s else readClass op form f s

/-- AND's effect (R186). -/
def andEffect (m : Byte) (s : State) : State := loadA (s.a &&& m) s

/-- ORA's effect (R187). -/
def oraEffect (m : Byte) (s : State) : State := loadA (s.a ||| m) s

/-- EOR's effect (R188). -/
def eorEffect (m : Byte) (s : State) : State := loadA (s.a ^^^ m) s

/-- BIT's effect (R189): flags only. -/
def bitEffect (m : Byte) (s : State) : State := s.setFlags (bitFlags s.a m s.flags)

/-! ## ADC and SBC -/

/-- ADC, opcode 69, Immediate (R182). -/
def execAdcImm (v : Byte) (s : State) : Result := decimalClass 0x69 (.immediate v) adcEffect s

/-- ADC, opcode 65, ZeroPage (R182). -/
def execAdcZp (b : Byte) (s : State) : Result := decimalClass 0x65 (.zeroPage b) adcEffect s

/-- ADC, opcode 75, ZeroPageX (R182). -/
def execAdcZpX (b : Byte) (s : State) : Result := decimalClass 0x75 (.zeroPageX b) adcEffect s

/-- ADC, opcode 6D, Absolute (R182). -/
def execAdcAbs (w : Word) (s : State) : Result := decimalClass 0x6D (.absolute w) adcEffect s

/-- ADC, opcode 7D, AbsoluteX (R182). -/
def execAdcAbsX (w : Word) (s : State) : Result := decimalClass 0x7D (.absoluteX w) adcEffect s

/-- ADC, opcode 79, AbsoluteY (R182). -/
def execAdcAbsY (w : Word) (s : State) : Result := decimalClass 0x79 (.absoluteY w) adcEffect s

/-- ADC, opcode 61, IndirectX (R182). -/
def execAdcIndX (b : Byte) (s : State) : Result := decimalClass 0x61 (.indirectX b) adcEffect s

/-- ADC, opcode 71, IndirectY (R182). -/
def execAdcIndY (b : Byte) (s : State) : Result := decimalClass 0x71 (.indirectY b) adcEffect s

/-- SBC, opcode E9, Immediate (R184). -/
def execSbcImm (v : Byte) (s : State) : Result := decimalClass 0xE9 (.immediate v) sbcEffect s

/-- SBC, opcode E5, ZeroPage (R184). -/
def execSbcZp (b : Byte) (s : State) : Result := decimalClass 0xE5 (.zeroPage b) sbcEffect s

/-- SBC, opcode F5, ZeroPageX (R184). -/
def execSbcZpX (b : Byte) (s : State) : Result := decimalClass 0xF5 (.zeroPageX b) sbcEffect s

/-- SBC, opcode ED, Absolute (R184). -/
def execSbcAbs (w : Word) (s : State) : Result := decimalClass 0xED (.absolute w) sbcEffect s

/-- SBC, opcode FD, AbsoluteX (R184). -/
def execSbcAbsX (w : Word) (s : State) : Result := decimalClass 0xFD (.absoluteX w) sbcEffect s

/-- SBC, opcode F9, AbsoluteY (R184). -/
def execSbcAbsY (w : Word) (s : State) : Result := decimalClass 0xF9 (.absoluteY w) sbcEffect s

/-- SBC, opcode E1, IndirectX (R184). -/
def execSbcIndX (b : Byte) (s : State) : Result := decimalClass 0xE1 (.indirectX b) sbcEffect s

/-- SBC, opcode F1, IndirectY (R184). -/
def execSbcIndY (b : Byte) (s : State) : Result := decimalClass 0xF1 (.indirectY b) sbcEffect s

/-! ## Logic -/

/-- AND, opcode 29, Immediate (R186). -/
def execAndImm (v : Byte) (s : State) : Result := readClass 0x29 (.immediate v) andEffect s

/-- AND, opcode 25, ZeroPage (R186). -/
def execAndZp (b : Byte) (s : State) : Result := readClass 0x25 (.zeroPage b) andEffect s

/-- AND, opcode 35, ZeroPageX (R186). -/
def execAndZpX (b : Byte) (s : State) : Result := readClass 0x35 (.zeroPageX b) andEffect s

/-- AND, opcode 2D, Absolute (R186). -/
def execAndAbs (w : Word) (s : State) : Result := readClass 0x2D (.absolute w) andEffect s

/-- AND, opcode 3D, AbsoluteX (R186). -/
def execAndAbsX (w : Word) (s : State) : Result := readClass 0x3D (.absoluteX w) andEffect s

/-- AND, opcode 39, AbsoluteY (R186). -/
def execAndAbsY (w : Word) (s : State) : Result := readClass 0x39 (.absoluteY w) andEffect s

/-- AND, opcode 21, IndirectX (R186). -/
def execAndIndX (b : Byte) (s : State) : Result := readClass 0x21 (.indirectX b) andEffect s

/-- AND, opcode 31, IndirectY (R186). -/
def execAndIndY (b : Byte) (s : State) : Result := readClass 0x31 (.indirectY b) andEffect s

/-- ORA, opcode 09, Immediate (R187). -/
def execOraImm (v : Byte) (s : State) : Result := readClass 0x09 (.immediate v) oraEffect s

/-- ORA, opcode 05, ZeroPage (R187). -/
def execOraZp (b : Byte) (s : State) : Result := readClass 0x05 (.zeroPage b) oraEffect s

/-- ORA, opcode 15, ZeroPageX (R187). -/
def execOraZpX (b : Byte) (s : State) : Result := readClass 0x15 (.zeroPageX b) oraEffect s

/-- ORA, opcode 0D, Absolute (R187). -/
def execOraAbs (w : Word) (s : State) : Result := readClass 0x0D (.absolute w) oraEffect s

/-- ORA, opcode 1D, AbsoluteX (R187). -/
def execOraAbsX (w : Word) (s : State) : Result := readClass 0x1D (.absoluteX w) oraEffect s

/-- ORA, opcode 19, AbsoluteY (R187). -/
def execOraAbsY (w : Word) (s : State) : Result := readClass 0x19 (.absoluteY w) oraEffect s

/-- ORA, opcode 01, IndirectX (R187). -/
def execOraIndX (b : Byte) (s : State) : Result := readClass 0x01 (.indirectX b) oraEffect s

/-- ORA, opcode 11, IndirectY (R187). -/
def execOraIndY (b : Byte) (s : State) : Result := readClass 0x11 (.indirectY b) oraEffect s

/-- EOR, opcode 49, Immediate (R188). -/
def execEorImm (v : Byte) (s : State) : Result := readClass 0x49 (.immediate v) eorEffect s

/-- EOR, opcode 45, ZeroPage (R188). -/
def execEorZp (b : Byte) (s : State) : Result := readClass 0x45 (.zeroPage b) eorEffect s

/-- EOR, opcode 55, ZeroPageX (R188). -/
def execEorZpX (b : Byte) (s : State) : Result := readClass 0x55 (.zeroPageX b) eorEffect s

/-- EOR, opcode 4D, Absolute (R188). -/
def execEorAbs (w : Word) (s : State) : Result := readClass 0x4D (.absolute w) eorEffect s

/-- EOR, opcode 5D, AbsoluteX (R188). -/
def execEorAbsX (w : Word) (s : State) : Result := readClass 0x5D (.absoluteX w) eorEffect s

/-- EOR, opcode 59, AbsoluteY (R188). -/
def execEorAbsY (w : Word) (s : State) : Result := readClass 0x59 (.absoluteY w) eorEffect s

/-- EOR, opcode 41, IndirectX (R188). -/
def execEorIndX (b : Byte) (s : State) : Result := readClass 0x41 (.indirectX b) eorEffect s

/-- EOR, opcode 51, IndirectY (R188). -/
def execEorIndY (b : Byte) (s : State) : Result := readClass 0x51 (.indirectY b) eorEffect s

/-- BIT, opcode 24, ZeroPage (R189). -/
def execBitZp (b : Byte) (s : State) : Result := readClass 0x24 (.zeroPage b) bitEffect s

/-- BIT, opcode 2C, Absolute (R189). -/
def execBitAbs (w : Word) (s : State) : Result := readClass 0x2C (.absolute w) bitEffect s

end Sys2Proof.Machine
end

