-- ==== Sys2Proof/Machine/Control.lean ====
section
/-! DEFINITION. Branch, jump, call and return instructions (spec/45_control_transfer.md R230-R243). -/

namespace Sys2Proof.Machine

/-- JSR's effect (R241): the operand is read in full, then the address of JSR's last byte is pushed, high byte first. -/
def callSubroutine (w : Word) (s : State) : State :=
  let t := consumeWord w s
  let ret := t.pc - 1
  (push (lo8 ret) (push (hi8 ret) t)).setPC w

/-! ## Branches -/

/-- BCC, opcode 90, Relative (R231). -/
def execBcc (d : Byte) (s : State) : Result := branchClass 0x90 d (!s.flags.c) s

/-- BCS, opcode B0, Relative (R232). -/
def execBcs (d : Byte) (s : State) : Result := branchClass 0xB0 d s.flags.c s

/-- BEQ, opcode F0, Relative (R233). -/
def execBeq (d : Byte) (s : State) : Result := branchClass 0xF0 d s.flags.z s

/-- BNE, opcode D0, Relative (R234). -/
def execBne (d : Byte) (s : State) : Result := branchClass 0xD0 d (!s.flags.z) s

/-- BPL, opcode 10, Relative (R235). -/
def execBpl (d : Byte) (s : State) : Result := branchClass 0x10 d (!s.flags.n) s

/-- BMI, opcode 30, Relative (R236). -/
def execBmi (d : Byte) (s : State) : Result := branchClass 0x30 d s.flags.n s

/-- BVC, opcode 50, Relative (R237). -/
def execBvc (d : Byte) (s : State) : Result := branchClass 0x50 d (!s.flags.v) s

/-- BVS, opcode 70, Relative (R238). -/
def execBvs (d : Byte) (s : State) : Result := branchClass 0x70 d s.flags.v s

/-! ## Jumps, calls and returns -/

/-- JMP, opcode 4C, Absolute (R240). -/
def execJmpAbs (w : Word) (s : State) : Result := jumpClass 0x4C (.absolute w) s

/-- JMP, opcode 6C, Indirect (R240). -/
def execJmpInd (w : Word) (s : State) : Result := jumpClass 0x6C (.indirect w) s

/-- JSR, opcode 20, Absolute (R241). -/
def execJsr (w : Word) (s : State) : Result := impliedClass 0x20 (callSubroutine w) s

/-- RTS, opcode 60, Implied (R242). -/
def execRts (s : State) : Result := impliedClass 0x60 (pullPC 1) s

/-- RTI, opcode 40, Implied (R243). -/
def execRti (s : State) : Result := impliedClass 0x40 returnFromInterrupt s

end Sys2Proof.Machine
end

