-- ==== Sys2Proof/Machine/Shift.lean ====
section
/-! DEFINITION. Shift, rotate, increment, decrement and compare instructions (spec/44_shift_incdec_compare.md R200-R214). -/

namespace Sys2Proof.Machine

/-- CMP's effect (R212): flags only. -/
def cmpEffect (m : Byte) (s : State) : State := s.setFlags (compareFlags s.a m s.flags)

/-- CPX's effect (R213). -/
def cpxEffect (m : Byte) (s : State) : State := s.setFlags (compareFlags s.x m s.flags)

/-- CPY's effect (R214). -/
def cpyEffect (m : Byte) (s : State) : State := s.setFlags (compareFlags s.y m s.flags)

/-! ## Shift and rotate -/

/-- ASL, opcode 0A, Implied (A) (R201). -/
def execAslA (s : State) : Result := impliedClass 0x0A (modifyA aslByte) s

/-- ASL, opcode 06, ZeroPage (R201). -/
def execAslZp (b : Byte) (s : State) : Result := rmwClass 0x06 (.zeroPage b) aslByte s

/-- ASL, opcode 16, ZeroPageX (R201). -/
def execAslZpX (b : Byte) (s : State) : Result := rmwClass 0x16 (.zeroPageX b) aslByte s

/-- ASL, opcode 0E, Absolute (R201). -/
def execAslAbs (w : Word) (s : State) : Result := rmwClass 0x0E (.absolute w) aslByte s

/-- ASL, opcode 1E, AbsoluteX (R201). -/
def execAslAbsX (w : Word) (s : State) : Result := rmwClass 0x1E (.absoluteX w) aslByte s

/-- LSR, opcode 4A, Implied (A) (R202). -/
def execLsrA (s : State) : Result := impliedClass 0x4A (modifyA lsrByte) s

/-- LSR, opcode 46, ZeroPage (R202). -/
def execLsrZp (b : Byte) (s : State) : Result := rmwClass 0x46 (.zeroPage b) lsrByte s

/-- LSR, opcode 56, ZeroPageX (R202). -/
def execLsrZpX (b : Byte) (s : State) : Result := rmwClass 0x56 (.zeroPageX b) lsrByte s

/-- LSR, opcode 4E, Absolute (R202). -/
def execLsrAbs (w : Word) (s : State) : Result := rmwClass 0x4E (.absolute w) lsrByte s

/-- LSR, opcode 5E, AbsoluteX (R202). -/
def execLsrAbsX (w : Word) (s : State) : Result := rmwClass 0x5E (.absoluteX w) lsrByte s

/-- ROL, opcode 2A, Implied (A) (R203). -/
def execRolA (s : State) : Result := impliedClass 0x2A (modifyA rolByte) s

/-- ROL, opcode 26, ZeroPage (R203). -/
def execRolZp (b : Byte) (s : State) : Result := rmwClass 0x26 (.zeroPage b) rolByte s

/-- ROL, opcode 36, ZeroPageX (R203). -/
def execRolZpX (b : Byte) (s : State) : Result := rmwClass 0x36 (.zeroPageX b) rolByte s

/-- ROL, opcode 2E, Absolute (R203). -/
def execRolAbs (w : Word) (s : State) : Result := rmwClass 0x2E (.absolute w) rolByte s

/-- ROL, opcode 3E, AbsoluteX (R203). -/
def execRolAbsX (w : Word) (s : State) : Result := rmwClass 0x3E (.absoluteX w) rolByte s

/-- ROR, opcode 6A, Implied (A) (R204). -/
def execRorA (s : State) : Result := impliedClass 0x6A (modifyA rorByte) s

/-- ROR, opcode 66, ZeroPage (R204). -/
def execRorZp (b : Byte) (s : State) : Result := rmwClass 0x66 (.zeroPage b) rorByte s

/-- ROR, opcode 76, ZeroPageX (R204). -/
def execRorZpX (b : Byte) (s : State) : Result := rmwClass 0x76 (.zeroPageX b) rorByte s

/-- ROR, opcode 6E, Absolute (R204). -/
def execRorAbs (w : Word) (s : State) : Result := rmwClass 0x6E (.absolute w) rorByte s

/-- ROR, opcode 7E, AbsoluteX (R204). -/
def execRorAbsX (w : Word) (s : State) : Result := rmwClass 0x7E (.absoluteX w) rorByte s

/-! ## Increment and decrement -/

/-- INC, opcode E6, ZeroPage (R205). -/
def execIncZp (b : Byte) (s : State) : Result := rmwClass 0xE6 (.zeroPage b) incByte s

/-- INC, opcode F6, ZeroPageX (R205). -/
def execIncZpX (b : Byte) (s : State) : Result := rmwClass 0xF6 (.zeroPageX b) incByte s

/-- INC, opcode EE, Absolute (R205). -/
def execIncAbs (w : Word) (s : State) : Result := rmwClass 0xEE (.absolute w) incByte s

/-- INC, opcode FE, AbsoluteX (R205). -/
def execIncAbsX (w : Word) (s : State) : Result := rmwClass 0xFE (.absoluteX w) incByte s

/-- DEC, opcode C6, ZeroPage (R206). -/
def execDecZp (b : Byte) (s : State) : Result := rmwClass 0xC6 (.zeroPage b) decByte s

/-- DEC, opcode D6, ZeroPageX (R206). -/
def execDecZpX (b : Byte) (s : State) : Result := rmwClass 0xD6 (.zeroPageX b) decByte s

/-- DEC, opcode CE, Absolute (R206). -/
def execDecAbs (w : Word) (s : State) : Result := rmwClass 0xCE (.absolute w) decByte s

/-- DEC, opcode DE, AbsoluteX (R206). -/
def execDecAbsX (w : Word) (s : State) : Result := rmwClass 0xDE (.absoluteX w) decByte s

/-- INX, opcode E8, Implied (R207). -/
def execInx (s : State) : Result := impliedClass 0xE8 (fun t => loadX (t.x + 1) t) s

/-- DEX, opcode CA, Implied (R208). -/
def execDex (s : State) : Result := impliedClass 0xCA (fun t => loadX (t.x - 1) t) s

/-- INY, opcode C8, Implied (R209). -/
def execIny (s : State) : Result := impliedClass 0xC8 (fun t => loadY (t.y + 1) t) s

/-- DEY, opcode 88, Implied (R210). -/
def execDey (s : State) : Result := impliedClass 0x88 (fun t => loadY (t.y - 1) t) s

/-! ## Compare -/

/-- CMP, opcode C9, Immediate (R212). -/
def execCmpImm (v : Byte) (s : State) : Result := readClass 0xC9 (.immediate v) cmpEffect s

/-- CMP, opcode C5, ZeroPage (R212). -/
def execCmpZp (b : Byte) (s : State) : Result := readClass 0xC5 (.zeroPage b) cmpEffect s

/-- CMP, opcode D5, ZeroPageX (R212). -/
def execCmpZpX (b : Byte) (s : State) : Result := readClass 0xD5 (.zeroPageX b) cmpEffect s

/-- CMP, opcode CD, Absolute (R212). -/
def execCmpAbs (w : Word) (s : State) : Result := readClass 0xCD (.absolute w) cmpEffect s

/-- CMP, opcode DD, AbsoluteX (R212). -/
def execCmpAbsX (w : Word) (s : State) : Result := readClass 0xDD (.absoluteX w) cmpEffect s

/-- CMP, opcode D9, AbsoluteY (R212). -/
def execCmpAbsY (w : Word) (s : State) : Result := readClass 0xD9 (.absoluteY w) cmpEffect s

/-- CMP, opcode C1, IndirectX (R212). -/
def execCmpIndX (b : Byte) (s : State) : Result := readClass 0xC1 (.indirectX b) cmpEffect s

/-- CMP, opcode D1, IndirectY (R212). -/
def execCmpIndY (b : Byte) (s : State) : Result := readClass 0xD1 (.indirectY b) cmpEffect s

/-- CPX, opcode E0, Immediate (R213). -/
def execCpxImm (v : Byte) (s : State) : Result := readClass 0xE0 (.immediate v) cpxEffect s

/-- CPX, opcode E4, ZeroPage (R213). -/
def execCpxZp (b : Byte) (s : State) : Result := readClass 0xE4 (.zeroPage b) cpxEffect s

/-- CPX, opcode EC, Absolute (R213). -/
def execCpxAbs (w : Word) (s : State) : Result := readClass 0xEC (.absolute w) cpxEffect s

/-- CPY, opcode C0, Immediate (R214). -/
def execCpyImm (v : Byte) (s : State) : Result := readClass 0xC0 (.immediate v) cpyEffect s

/-- CPY, opcode C4, ZeroPage (R214). -/
def execCpyZp (b : Byte) (s : State) : Result := readClass 0xC4 (.zeroPage b) cpyEffect s

/-- CPY, opcode CC, Absolute (R214). -/
def execCpyAbs (w : Word) (s : State) : Result := readClass 0xCC (.absolute w) cpyEffect s

end Sys2Proof.Machine
end

