-- ==== Sys2Proof/Machine/Stack.lean ====
section
/-! DEFINITION. Stack instructions (spec/42_stack.md R160-R164). -/

namespace Sys2Proof.Machine

/-- Pull a byte into A and set Z and N from it (R162). -/
def pullA (s : State) : State :=
  let q := pull s
  loadA q.1 q.2

/-- PHA, opcode 48, Implied (R161). -/
def execPha (s : State) : Result := impliedClass 0x48 (fun t => push t.a t) s

/-- PLA, opcode 68, Implied (R162). -/
def execPla (s : State) : Result := impliedClass 0x68 pullA s

/-- PHP, opcode 08, Implied (R163). -/
def execPhp (s : State) : Result := impliedClass 0x08 (fun t => push (pushedP t.flags true) t) s

/-- PLP, opcode 28, Implied (R164). -/
def execPlp (s : State) : Result := impliedClass 0x28 pullFlags s

end Sys2Proof.Machine
end

