-- ==== Sys2Proof/Machine/System.lean ====
section
/-! DEFINITION. Flag operations and system instructions (spec/46_flags_system.md R260-R269). -/

namespace Sys2Proof.Machine

/-- CLC, opcode 18, Implied (R261). -/
def execClc (s : State) : Result := impliedClass 0x18 (fun t => t.setFlags { t.flags with c := false }) s

/-- SEC, opcode 38, Implied (R262). -/
def execSec (s : State) : Result := impliedClass 0x38 (fun t => t.setFlags { t.flags with c := true }) s

/-- CLI, opcode 58, Implied (R263). -/
def execCli (s : State) : Result := impliedClass 0x58 (fun t => t.setFlags { t.flags with i := false }) s

/-- SEI, opcode 78, Implied (R264). -/
def execSei (s : State) : Result := impliedClass 0x78 (fun t => t.setFlags { t.flags with i := true }) s

/-- CLD, opcode D8, Implied (R265). -/
def execCld (s : State) : Result := impliedClass 0xD8 (fun t => t.setFlags { t.flags with d := false }) s

/-- SED, opcode F8, Implied (R266). -/
def execSed (s : State) : Result := impliedClass 0xF8 (fun t => t.setFlags { t.flags with d := true }) s

/-- CLV, opcode B8, Implied (R267). -/
def execClv (s : State) : Result := impliedClass 0xB8 (fun t => t.setFlags { t.flags with v := false }) s

/-- NOP, opcode EA, Implied (R268). -/
def execNop (s : State) : Result := impliedClass 0xEA id s

/-- BRK's effect (R269): PC skips the byte after the opcode, which is not read; then the interrupt sequence. -/
def softwareInterrupt (s : State) : State := interruptSequence .brk (s.setPC (s.pc + 1))

/-- BRK, opcode 00, Implied (R269). -/
def execBrk (s : State) : Result := impliedClass 0x00 softwareInterrupt s

end Sys2Proof.Machine
end

