-- ==== Sys2Proof/Machine/Fetch.lean ====
section
/-! DEFINITION. Fetching an instruction (spec/10_state.md R22, R23), the undefined-opcode policy (spec/30_encoding.md R78), and where a
test places an instruction. -/

namespace Sys2Proof.Machine

/-- The state after the opcode fetch (R82): one read at PC, and PC moves on. -/
def afterOpcode (s : State) : State := (fetch8 s).2

/-- The bytes of the longest instruction at PC (3, R71), each as the bus would answer its read at the moment it is needed (R63). Only
the opcode read has taken effect in `afterOpcode`: the operand bytes an instruction has are consumed by its meaning, once each, and
the bytes it does not have are never read (R59; DEDUCED, safe: log entry 15). -/
def fetchBytes (s : State) : List Byte :=
  let op := fetch8 s
  let lo := fetch8 op.2
  let hi := fetch8 lo.2
  [op.1, lo.1, hi.1]

/-- The registers of a state. -/
def State.registers (s : State) : Registers := { a := s.a, x := s.x, y := s.y, sp := s.sp, pc := s.pc, flags := s.flags }

/-- Write all registers. -/
def State.setRegisters (s : State) (r : Registers) : State :=
  (((((s.setA r.a).setX r.x).setY r.y).setSP r.sp).setPC r.pc).setFlags r.flags

/-- Run the program of an alias table's behaviour to its end (R82, R83): its bus accesses in their order, its registers, its ticks. -/
def runAlias : AliasProgram → State → State
  | .read addr cont, s => runAlias (cont (s.answer addr)) (busRead addr s).2
  | .write addr v cont, s => runAlias cont (busWrite addr v s)
  | .done r n, s => (s.setRegisters r).tick n

/-- Run a behaviour of an alias table and "return its outcome" (R82). It completes, or is refused "before the handler writes anything"
(R83) if it is marked decimal and D = 1 under `Refuse`, as R302 has it for ADC and SBC (DESIGN CHOICE, safe: log entry 3). -/
def runBehaviour (b : AliasBehaviour) (s : State) : Result :=
  if b.decimal && decimalRefused s then raiseError .decimalUnmodelled s else .next (runAlias (b.program s.registers) s)

/-- The behaviour a policy gives an undefined byte, if any (R11). -/
def aliasOf : IllegalPolicy → Byte → Option Nat
  | .fail, _ => none
  | .aliased table, op => table.lookup op

/-- An opcode byte with no Dispatch Entry (R78, R82), `opPc` its own address and `s` the state after its fetch. -/
def undefinedOpcode (op : Byte) (opPc : Word) (s : State) : Result :=
  match aliasOf s.cfg.illegalPolicy op with
  | some k => runBehaviour (Config.aliasBehaviour k) s
  | none => raiseError (.unimplementedOpcode op opPc) s

/-! ## Placing an instruction -/

/-- Store bytes at an address and up, behind the bus, with no bus event (DESIGN CHOICE: log entry 6). -/
def placeBytes : List Byte → Word → Memory → Memory
  | [], _, m => m
  | b :: bs, addr, m => placeBytes bs (addr + 1) (Memory.write m addr.toNat b)

/-- A configuration whose I/O regions leave out an address. -/
def Config.backWithRam (c : Config) (addr : Word) : Config :=
  { c with io := c.io.filter (fun r => !IoRegion.covers r addr) }

/-- `s` with the instruction's bytes at PC, in RAM, and the next Step one that executes an instruction: dispatch running, no request. -/
def placeInstr (nbits w : Nat) (s : State) : State :=
  { s with
    fsm := .running, resetPending := false, nmiPending := false, irqLine := false
    mem := placeBytes (tableBytes nbits w) s.pc s.mem
    cfg := Config.backWithRam (Config.backWithRam (Config.backWithRam s.cfg s.pc) (s.pc + 1)) (s.pc + 2) }

end Sys2Proof.Machine
end

