-- ==== Sys2Proof/Machine/Boundary.lean ====
section
/-! DEFINITION. What a Step does at an instruction boundary (spec/30_encoding.md R82, spec/60_exceptions.md R304, R312): the order in
which requests are taken, and else one instruction. -/

namespace Sys2Proof.Machine

/-- Fetch, decode and run one instruction (R82). Three bytes decode to an instruction or to an undefined opcode, never to too few
(DESIGN CHOICE, safe: log entry 16). -/
def stepInstr (s : State) : Result :=
  match decode (fetchBytes s) with
  | .ok (i, _) => exec i (afterOpcode s)
  | .error (.undefinedOpcode op) => undefinedOpcode op s.pc (afterOpcode s)
  | .error .truncated => raiseError .invalidAddressingMode (afterOpcode s)

/-- A Step in `Running` (R82, R312): requests are sampled first, in the order Reset, NMI, IRQ with I = 0. -/
def stepRunning (s : State) : Result :=
  if s.resetPending then .next (resetSequence s)
  else if s.nmiPending then .next ((interruptSequence .nmi (s.setNmiPending false)).tick sequenceTicks)
  else if s.irqLine && !s.flags.i then .next ((interruptSequence .irq s).tick sequenceTicks)
  else stepInstr s

/-- A Step in `Faulted(e)` (R304): the same outcome again, unless a Reset is pending. -/
def stepFaulted (e : StepError) (s : State) : Result :=
  if s.resetPending then .next (resetSequence s) else report e s

end Sys2Proof.Machine
end

