-- ==== Sys2Proof/Machine/Step.lean ====
section
/-! DEFINITION. One Step (spec/30_encoding.md R82): nothing when Faulted, the Reset sequence, the NMI sequence, the IRQ sequence, or
one instruction. -/

namespace Sys2Proof.Machine

/-- `Step()` (R82). -/
def step (s : State) : Host.Outcome State Fault Refusal :=
  match s.fsm with
  | .running => stepRunning s
  | .faulted e => stepFaulted e s

/-- `s` with an instruction stored where `step` fetches its next one, so that `step` runs exactly it. -/
def State.withFetchWord (s : State) (nbits w : Nat) : State := placeInstr nbits w s

end Sys2Proof.Machine
end

