-- ==== Sys2Proof/Machine/HostPort.lean ====
section
/-! DEFINITION. What the host can do to the machine, between Steps (spec/60_exceptions.md R330, R311). -/

namespace Sys2Proof.Machine

/-- The host's actions (R330). "Stop calling Step" is the absence of an action. `busChange` is the bus side: it "may change
memory between Steps", with no access by the executor (DESIGN CHOICE, unsafe: log entry 14). -/
inductive HostAction where
  | step
  | assertReset
  | signalNMI
  | setIRQ (level : Bool)
  | busChange (addr : Word) (v : Byte)
deriving DecidableEq, Repr

/-- What a Step returns to the host (R17, R330); `unmodelled` stands for an instruction with no meaning, which there is none of. -/
inductive StepReport where
  | ok
  | error (e : StepError)
  | refused (e : StepError)
  | unmodelled
deriving DecidableEq, Repr

/-- The report of a Step, and the state the machine is then in (R300-R304): the host can go on after an error. -/
def settle (before : State) : Result → StepReport × State
  | .next t => (.ok, t)
  | .fault (.unimplementedOpcode op pc t) => (.error (.unimplementedOpcode op pc), t)
  | .fault (.invalidAddressingMode t) => (.error .invalidAddressingMode, t)
  | .refused (.decimalUnmodelled t) => (.refused .decimalUnmodelled, t)
  | .refused _ => (.unmodelled, before)

/-- One action of the host (R311, R330). -/
def hostAct : HostAction → State → StepReport × State
  | .step, s => settle s (step s)
  | .assertReset, s => (.ok, s.setResetPending true)
  | .signalNMI, s => (.ok, s.setNmiPending true)
  | .setIRQ level, s => (.ok, s.setIrqLine level)
  | .busChange addr v, s => (.ok, s.setMem (Memory.write s.mem addr.toNat v))

/-- A host's script, one action after another: the reports of its actions in order, and the state at the end. -/
def hostRun : List HostAction → State → List StepReport × State
  | [], s => ([], s)
  | act :: rest, s =>
    let q := hostAct act s
    let r := hostRun rest q.2
    (q.1 :: r.1, r.2)

end Sys2Proof.Machine
end

