-- ==== Sys2Proof/Safety.lean ====
section
/-! DEFINITION. What counts as a safe run, and the terms claims use: the read of one byte, what a step leaves alone, the events and
accesses of a step (spec/40_addressing_modes.md R115), the invariants, and the spec's tables of who writes what (spec/10_state.md R21,
R29, R31; spec/20_memory.md R51) and of base cycle counts (spec/30_encoding.md R76). -/

namespace Sys2Proof.Machine

/-! ## Reading one byte, and what stays -/

/-- The byte behind the bus at an address: the content of RAM (R52). Looking at it is no bus event. -/
def State.peek (s : State) (addr : Word) : Byte := Memory.read s.mem addr.toNat

/-- Every byte of memory is unchanged. -/
def keepsMemory (s t : State) : Prop := ∀ addr, t.peek addr = s.peek addr

/-- Every byte of memory is unchanged outside the listed addresses. -/
def keepsMemoryBut (addrs : List Word) (s t : State) : Prop := ∀ addr, addr ∉ addrs → t.peek addr = s.peek addr

/-- A, X, Y and SP are unchanged. -/
def keepsRegisters (s t : State) : Prop := t.a = s.a ∧ t.x = s.x ∧ t.y = s.y ∧ t.sp = s.sp

/-- The dispatch state, the request inputs and the configuration are unchanged. -/
def keepsControl (s t : State) : Prop :=
  t.fsm = s.fsm ∧ t.resetPending = s.resetPending ∧ t.nmiPending = s.nmiPending ∧ t.irqLine = s.irqLine ∧ t.cfg = s.cfg

/-- The flags with Z and N describing a byte (R26), and the others as before. -/
def flagsOfResult (v : Byte) (f : Flags) : Flags := { f with z := decide (v.toNat = 0), n := decide (128 ≤ v.toNat) }

/-! ## Operands -/

/-- The byte a read-class instruction works on: the immediate value, or what the bus answers at the effective address. -/
def operandByte (f : Form) (s : State) : Byte :=
  match (resolve f s).operand with
  | .imm v => v
  | .addr ea => (resolve f s).state.answer ea
  | _ => 0

/-- The effective address, for a form that has one. -/
def effectiveAddress (f : Form) (s : State) : Option Word :=
  match (resolve f s).operand with
  | .addr ea => some ea
  | _ => none

/-- Whether the condition of a branch holds (R231-R238, R14). -/
def branchTaken (mn : Mnemonic) (f : Flags) : Bool :=
  match mn with
  | .bcc => !f.c
  | .bcs => f.c
  | .beq => f.z
  | .bne => !f.z
  | .bpl => !f.n
  | .bmi => f.n
  | .bvc => !f.v
  | .bvs => f.v
  | _ => false

/-- The result of a shift or rotate as a number (R201-R204), from the byte and the old carry. -/
def shiftedValue (mn : Mnemonic) (v : Byte) (c : Bool) : Nat :=
  match mn with
  | .asl => v.toNat * 2 % 256
  | .lsr => v.toNat / 2
  | .rol => (v.toNat * 2 + bit c) % 256
  | .ror => v.toNat / 2 + bit c * 128
  | _ => 0

/-- The bit a shift or rotate moves into C (R201-R204): bit 7 to the left, bit 0 to the right. -/
def shiftedOut (mn : Mnemonic) (v : Byte) : Bool :=
  match mn with
  | .asl | .rol => decide (128 ≤ v.toNat)
  | _ => decide (v.toNat % 2 = 1)

/-! ## Decimal digits -/

/-- Both digits of a byte are decimal digits. -/
def isBcd (v : Byte) : Prop := v.toNat % 16 < 10 ∧ v.toNat / 16 < 10

/-- The number two decimal digits stand for. -/
def bcdValue (v : Byte) : Nat := v.toNat / 16 * 10 + v.toNat % 16

/-! ## The events of a step -/

/-- The bus events between two states, in order, oldest first. -/
def eventsBetween (s t : State) : List BusEvent := (t.trace.take (t.trace.length - s.trace.length)).reverse

/-- An event without its byte. -/
inductive Access where
  | read (addr : Word)
  | write (addr : Word)
deriving DecidableEq, Repr

/-- The access an event makes. -/
def accessOf : BusEvent → Access
  | .read addr _ => .read addr
  | .write addr _ => .write addr

/-- The Resolver's reads, in order, by mode (R115), from the state after the opcode fetch. -/
def resolverReads (f : Form) (s : State) : List Word :=
  match f with
  | .implied => []
  | .immediate _ | .zeroPage _ | .zeroPageX _ | .zeroPageY _ | .relative _ => [s.pc]
  | .absolute _ | .absoluteX _ | .absoluteY _ => [s.pc, s.pc + 1]
  | .indirect p => [s.pc, s.pc + 1, p, word (hi8 p) (lo8 p + 1)]
  | .indirectX b => [s.pc, word 0 (b + s.x), word 0 (b + s.x + 1)]
  | .indirectY b => [s.pc, word 0 b, word 0 (b + 1)]

/-- Stores (R134-R136). -/
def isStore (mn : Mnemonic) : Bool := mn == .sta || mn == .stx || mn == .sty

/-- Mnemonics with a read-modify-write memory form (R200). -/
def isModify (mn : Mnemonic) : Bool :=
  mn == .asl || mn == .lsr || mn == .rol || mn == .ror || mn == .inc || mn == .dec

/-- The handler's own accesses to its operand, after the Resolver's (R115). -/
def operandAccesses (mn : Mnemonic) (ea : Option Word) : List Access :=
  match ea with
  | none => []
  | some a =>
    if isReadClass mn then [.read a]
    else if isStore mn then [.write a]
    else if isModify mn then [.read a, .write a]
    else []

/-- The stack accesses of an instruction, and BRK's vector reads (R30, R51, R313), in order. -/
def stackAccesses (mn : Mnemonic) (sp : Byte) : List Access :=
  match mn with
  | .pha | .php => [.write (stackAddr sp)]
  | .pla | .plp => [.read (stackAddr (sp + 1))]
  | .jsr => [.write (stackAddr sp), .write (stackAddr (sp - 1))]
  | .rts => [.read (stackAddr (sp + 1)), .read (stackAddr (sp + 2))]
  | .rti => [.read (stackAddr (sp + 1)), .read (stackAddr (sp + 2)), .read (stackAddr (sp + 3))]
  | .brk => [.write (stackAddr sp), .write (stackAddr (sp - 1)), .write (stackAddr (sp - 2)), .read 0xFFFE, .read 0xFFFF]
  | _ => []

/-! ## Who writes what -/

/-- The instructions that write A (R21). -/
def writesA (i : Instr) : Bool :=
  [Mnemonic.lda, .pla, .txa, .tya, .adc, .sbc, .and, .ora, .eor].contains i.mnemonic ||
    ([Mnemonic.asl, .lsr, .rol, .ror].contains i.mnemonic && i.form == .implied)

/-- The instructions that write X (R21). -/
def writesX (i : Instr) : Bool := [Mnemonic.ldx, .tax, .tsx, .inx, .dex].contains i.mnemonic

/-- The instructions that write Y (R21). -/
def writesY (i : Instr) : Bool := [Mnemonic.ldy, .tay, .iny, .dey].contains i.mnemonic

/-- The instructions that write SP (R31). -/
def writesSP (i : Instr) : Bool := [Mnemonic.txs, .pha, .php, .pla, .plp, .jsr, .rts, .rti, .brk].contains i.mnemonic

/-- The instructions that write C (R29). -/
def writesC (mn : Mnemonic) : Bool :=
  [Mnemonic.adc, .sbc, .asl, .lsr, .rol, .ror, .cmp, .cpx, .cpy, .clc, .sec, .plp, .rti].contains mn

/-- The instructions that write Z, and N (R29). -/
def writesZN (mn : Mnemonic) : Bool :=
  [Mnemonic.adc, .sbc, .and, .ora, .eor, .bit, .asl, .lsr, .rol, .ror, .inc, .dec, .inx, .dex, .iny, .dey, .cmp, .cpx, .cpy,
    .lda, .ldx, .ldy, .tax, .tay, .txa, .tya, .tsx, .pla, .plp, .rti].contains mn

/-- The instructions that write I (R29). -/
def writesI (mn : Mnemonic) : Bool := [Mnemonic.cli, .sei, .plp, .rti, .brk].contains mn

/-- The instructions that write D (R29). -/
def writesD (mn : Mnemonic) : Bool := [Mnemonic.cld, .sed, .plp, .rti].contains mn

/-- The instructions that write V (R29). -/
def writesV (mn : Mnemonic) : Bool := [Mnemonic.adc, .sbc, .bit, .clv, .plp, .rti].contains mn

/-- The instructions that write memory: data writes, read-modify-writes of memory, stack writes (R51). -/
def writesMemory (i : Instr) : Bool :=
  isStore i.mnemonic || (isModify i.mnemonic && i.form != .implied) || [Mnemonic.pha, .php, .jsr, .brk].contains i.mnemonic

/-- The instructions that set PC otherwise than past their own bytes (R230-R243, R269). -/
def setsPC (mn : Mnemonic) : Bool := isBranch mn || [Mnemonic.jmp, .jsr, .rts, .rti, .brk].contains mn

/-- The base cycle count of a mnemonic in a mode, as the columns of R76 give it. -/
def baseCount (mn : Mnemonic) (mode : Mode) : Nat :=
  match mode with
  | .implied =>
    match mn with
    | .pha | .php => 3
    | .pla | .plp => 4
    | .rts | .rti => 6
    | .brk => 7
    | _ => 2
  | .immediate | .relative => 2
  | .zeroPage => if isModify mn then 5 else 3
  | .zeroPageX | .zeroPageY => if isModify mn then 6 else 4
  | .absolute => if mn == .jmp then 3 else if isModify mn || mn == .jsr then 6 else 4
  | .absoluteX | .absoluteY => if isModify mn then 7 else if isStore mn then 5 else 4
  | .indirect => 5
  | .indirectX => 6
  | .indirectY => if isStore mn then 6 else 5

/-! ## Invariants and safe runs -/

/-- What every Step keeps: memory in its canonical form, and a configuration the platform can have. -/
def State.Inv (s : State) : Prop := Memory.wf s.mem = true ∧ s.cfg.wf = true

/-- The byte a RAM address holds after the events of a history (newest first), from an initial image: "the byte of the last write to
that address, or the initial memory image if none" (R52). -/
def ramAfter (image : Memory) : List BusEvent → Word → Byte
  | [], addr => Memory.read image addr.toNat
  | .write b v :: older, addr => if b = addr then v else ramAfter image older addr
  | .read _ _ :: older, addr => ramAfter image older addr

/-- Every read of a history carries what the bus had to answer then (R52, R61): of RAM the last write before it, of an I/O region the
oracle's answer to the history before it. -/
def coherentHistory (image : Memory) (c : Config) : List BusEvent → Prop
  | [] => True
  | .read addr v :: older =>
    v = (if isIo c addr then Config.busAnswer older addr else ramAfter image older addr) ∧ coherentHistory image c older
  | .write _ _ :: older => coherentHistory image c older

/-- A state whose memory and history agree, from an initial image (R52, R61). -/
def State.Coherent (image : Memory) (s : State) : Prop :=
  Memory.wf s.mem = true ∧ coherentHistory image s.cfg s.trace ∧
    ∀ addr, isIo s.cfg addr = false → s.peek addr = ramAfter image s.trace addr

/-- The state a result leaves, for any result that has one. -/
def resultState : Result → Option State
  | .next t => some t
  | .fault (.unimplementedOpcode _ _ t) => some t
  | .fault (.invalidAddressingMode t) => some t
  | .refused (.decimalUnmodelled t) => some t
  | .refused _ => none

/-- A state in which the next Step executes an instruction (R82): running, and no request wins the boundary (R312). -/
def State.executes (s : State) : Prop :=
  s.fsm = .running ∧ s.resetPending = false ∧ s.nmiPending = false ∧ (s.irqLine = false ∨ s.flags.i = true)

/-- The same machine with the counter `n` further on. -/
def Result.later (n : Nat) : Result → Result
  | .next t => .next (t.tick n)
  | .fault (.unimplementedOpcode op pc t) => .fault (.unimplementedOpcode op pc (t.tick n))
  | .fault (.invalidAddressingMode t) => .fault (.invalidAddressingMode (t.tick n))
  | .refused (.decimalUnmodelled t) => .refused (.decimalUnmodelled (t.tick n))
  | .refused r => .refused r

/-- A safe run: the host's actions one after another, every Step of them `Ok`. -/
def safeRun (acts : List HostAction) (s : State) : Prop := ∀ r ∈ (hostRun acts s).1, r = .ok

end Sys2Proof.Machine
end

