-- ==== Sys2Proof/Certificates/Slice0/Obligations.lean ====
section
/-! DEFINITION. The statements for the provers. An instruction's statement is about `exec`, in the state after the opcode fetch, and says
that it completes, what it writes and what it leaves alone; what it does to PC, to the events and to the counter for all instructions
at once is said by `InstructionsMovePCPastTheirBytes`, `BusEventsAreExactlyTheNeededOnes` and `InstructionsChargeTheirTicks`. -/

open Sys2Proof Sys2Proof.Machine

/-! ## Encoding -/

/-- R71, R75, R80: no bit of an encoding is dropped. -/
def Obligations.DecodeInvertsEncode : Prop :=
  ∀ (i : Instr) (rest : List Byte), i.wf = true → decode (encode i ++ rest) = .ok (i, rest)

/-- R79, R80: each byte sequence has one meaning, and the decoder takes exactly the instruction's bytes. -/
def Obligations.EncodeInvertsDecode : Prop :=
  ∀ (bytes rest : List Byte) (i : Instr), decode bytes = .ok (i, rest) → bytes = encode i ++ rest ∧ (encode i).length = i.length

/-- R72, R77: the bytes the decoder rejects by name are those of R77's list, whatever follows them. -/
def Obligations.UndefinedBytesAreRejectedByName : Prop :=
  ∀ (op : Byte) (rest : List Byte), decode (op :: rest) = .error (.undefinedOpcode op) ↔ op ∈ undefinedOpcodes

/-- R72, R75: words written out from the map, one of each format and family. -/
def Obligations.SampleWordsDecode : Prop :=
  decode [0xA9, 0x00] = .ok (.ldaImm 0x00, []) ∧ decode [0xF0, 0x02] = .ok (.beq 0x02, []) ∧
  decode [0x8D, 0x00, 0x02] = .ok (.staAbs 0x0200, []) ∧ decode [0x6C, 0xFF, 0x30] = .ok (.jmpInd 0x30FF, []) ∧
  decode [0x91, 0x20] = .ok (.staIndY 0x20, []) ∧ decode [0x7E, 0x00, 0x30] = .ok (.rorAbsX 0x3000, []) ∧
  decode [0x0A] = .ok (.aslA, []) ∧ decode [0x00] = .ok (.brk, []) ∧ decode [0x28] = .ok (.plp, []) ∧
  decode [0x02] = .error (.undefinedOpcode 0x02)

/-- R76: every opcode's base count is the one R76's columns give its mnemonic and mode. -/
def Obligations.BaseCountsFollowMnemonicAndMode : Prop :=
  ∀ i : Instr, ∃ r, lookup i.opcode = some r ∧ r.mnemonic = i.mnemonic ∧ r.mode = i.form.mode ∧
    r.base = baseCount i.mnemonic i.form.mode

/-! ## A Step -/

/-- R82, R22, R23: a Step that executes runs the instruction its bytes decode to, after one read of the opcode at PC that moves PC on by one
and does nothing else. -/
def Obligations.StepRunsTheDecodedInstruction : Prop :=
  ∀ (s : State) (i : Instr) (rest : List Byte), s.executes → decode (fetchBytes s) = .ok (i, rest) →
    step s = exec i (afterOpcode s) ∧ (afterOpcode s).pc = s.pc + 1 ∧
    (afterOpcode s).trace = .read s.pc i.opcode :: s.trace ∧ keepsRegisters s (afterOpcode s) ∧
    (afterOpcode s).flags = s.flags ∧ (afterOpcode s).mem = s.mem ∧ (afterOpcode s).cycles = s.cycles ∧
    keepsControl s (afterOpcode s)

/-- R22, R23: an instruction stored at PC is the one the next Step runs, at any PC (0xFFFF and 0x0000 included). Storing it is this
model's own operation (log entry 6). -/
def Obligations.StoredInstructionRunsNext : Prop :=
  ∀ (s : State) (nbits w : Nat) (i : Instr), Memory.wf s.mem = true → decodeTableWord nbits w = some i →
    step (s.withFetchWord nbits w) = exec i (afterOpcode (s.withFetchWord nbits w)) ∧
    fetchBytes (s.withFetchWord nbits w) =
      [(s.withFetchWord nbits w).peek s.pc, (s.withFetchWord nbits w).peek (s.pc + 1), (s.withFetchWord nbits w).peek (s.pc + 2)]

/-- R340, R341: a pending Reset wins every Step, also one in `Faulted`, and leaves every piece of state as R341's table says. -/
def Obligations.ResetSequenceSetsEveryState : Prop :=
  ∀ s : State, s.resetPending = true → ∃ t, step s = .next t ∧
    t.a = 0x00 ∧ t.x = 0x00 ∧ t.y = 0x00 ∧ t.sp = 0xFD ∧ registerView t.flags = 0x24 ∧
    t.pc = word ((s.record (.read 0xFFFC (s.answer 0xFFFC))).answer 0xFFFD) (s.answer 0xFFFC) ∧
    t.fsm = .running ∧ t.resetPending = false ∧ t.nmiPending = false ∧ t.irqLine = s.irqLine ∧ t.mem = s.mem ∧
    t.cycles = s.cycles + 7 ∧ t.cfg = s.cfg ∧
    (eventsBetween s t).map accessOf = [.read 0xFFFC, .read 0xFFFD]

/-- R36, R342: whatever the registers hold at power-on, the first Step is the Reset sequence and its outcome is the same; from empty
memory and a counter at 0 it is the model's reset state (its memory and start of the counter are log entries 5 and 7). -/
def Obligations.PowerOnRegistersAreNeverSeen : Prop :=
  (∀ (r r' : Registers) (launch : Nat) (mem : Memory) (cfg : Config),
    step (State.powerOn r launch mem cfg) = step (State.powerOn r' launch mem cfg)) ∧
  (∀ r : Registers, step (State.powerOn r 0 [] Config.standard) = .next State.reset)

/-! ## Addressing modes, in numbers -/

/-- R103, R104, R105: one byte is consumed, and the address never leaves the zero page; only LDX and STX use ZeroPageY. -/
def Obligations.ZeroPageModesStayInTheZeroPage : Prop :=
  (∀ (s : State) (b : Byte), ∃ p px py : Word,
    resolve (.zeroPage b) s = ⟨.addr p, false, consume b s⟩ ∧ p.toNat = b.toNat ∧
    resolve (.zeroPageX b) s = ⟨.addr px, false, consume b s⟩ ∧ px.toNat = (b.toNat + s.x.toNat) % 256 ∧
    resolve (.zeroPageY b) s = ⟨.addr py, false, consume b s⟩ ∧ py.toNat = (b.toNat + s.y.toNat) % 256) ∧
  (∀ i : Instr, i.form.mode = .zeroPageY → i.mnemonic = .ldx ∨ i.mnemonic = .stx)

/-- R107, R108, R109, R113: the operand word, or its sum with an index modulo 65536; `crossed` when the high bytes differ. -/
def Obligations.AbsoluteModesAddModulo65536 : Prop :=
  ∀ (s : State) (w : Word), ∃ ax ay : Word,
    resolve (.absolute w) s = ⟨.addr w, false, consume (hi8 w) (consume (lo8 w) s)⟩ ∧
    resolve (.absoluteX w) s =
      ⟨.addr ax, decide (w.toNat / 256 ≠ ax.toNat / 256), consume (hi8 w) (consume (lo8 w) s)⟩ ∧
    ax.toNat = (w.toNat + s.x.toNat) % 65536 ∧
    resolve (.absoluteY w) s =
      ⟨.addr ay, decide (w.toNat / 256 ≠ ay.toNat / 256), consume (hi8 w) (consume (lo8 w) s)⟩ ∧
    ay.toNat = (w.toNat + s.y.toNat) % 65536

/-- R110, R111, R112: where each pointer's two bytes are read, in their order, what the operand is, and when IndirectY crosses. -/
def Obligations.IndirectModesReadTheirPointer : Prop :=
  (∀ (s : State) (p : Word), ∃ hiAddr : Word,
    let t := consume (hi8 p) (consume (lo8 p) s)
    let lo := t.answer p
    let u := t.record (.read p lo)
    hiAddr.toNat = p.toNat / 256 * 256 + (p.toNat % 256 + 1) % 256 ∧
    resolve (.indirect p) s = ⟨.target (word (u.answer hiAddr) lo), false, u.record (.read hiAddr (u.answer hiAddr))⟩) ∧
  (∀ (s : State) (b : Byte), ∃ z z' : Word,
    let t := consume b s
    let lo := t.answer z
    let u := t.record (.read z lo)
    z.toNat = (b.toNat + s.x.toNat) % 256 ∧ z'.toNat = (b.toNat + s.x.toNat + 1) % 256 ∧
    resolve (.indirectX b) s = ⟨.addr (word (u.answer z') lo), false, u.record (.read z' (u.answer z'))⟩) ∧
  (∀ (s : State) (b : Byte), ∃ z z' ea : Word,
    let t := consume b s
    let lo := t.answer z
    let u := t.record (.read z lo)
    let base := word (u.answer z') lo
    z.toNat = b.toNat ∧ z'.toNat = (b.toNat + 1) % 256 ∧ ea.toNat = (base.toNat + s.y.toNat) % 65536 ∧
    resolve (.indirectY b) s =
      ⟨.addr ea, decide (base.toNat / 256 ≠ ea.toNat / 256), u.record (.read z' (u.answer z'))⟩)

/-- R106: the target is the address of the next instruction plus the signed displacement, modulo 65536; `crossed` compares the pages of
the two. -/
def Obligations.RelativeTargetIsSigned : Prop :=
  ∀ (s : State) (d : Byte), ∃ t : Word,
    resolve (.relative d) s =
      ⟨.target t, decide ((s.pc + 1).toNat / 256 ≠ t.toNat / 256), consume d s⟩ ∧
    (t.toNat : Int) = ((s.pc + 1).toNat + d.toInt) % 65536 ∧ -128 ≤ d.toInt ∧ d.toInt ≤ 127

/-! ## Flags and the stack -/

/-- R26: `SetZN` sets Z and N from the byte, "whatever their previous values", and no other flag. -/
def Obligations.SetZNIgnoresThePreviousFlags : Prop :=
  ∀ (v : Byte) (f : Flags), (setZN v f).z = decide (v.toNat = 0) ∧ (setZN v f).n = decide (128 ≤ v.toNat) ∧
    (setZN v f).v = f.v ∧ (setZN v f).d = f.d ∧ (setZN v f).i = f.i ∧ (setZN v f).c = f.c

/-- R30: a push writes at 0x0100 + SP and then decrements SP, a pull increments SP and then reads there; both wrap modulo 256 with no
error. The byte pushed is the one pulled, where the page is RAM and memory is canonical. -/
def Obligations.PushAndPullWrapInTheStackPage : Prop :=
  ∀ (s : State) (v : Byte),
    (stackAddr s.sp).toNat = 0x0100 + s.sp.toNat ∧
    (push v s).trace = .write (stackAddr s.sp) v :: s.trace ∧
    (push v s).sp.toNat = (s.sp.toNat + 255) % 256 ∧
    (pull s).2.sp.toNat = (s.sp.toNat + 1) % 256 ∧
    (pull s).2.trace = .read (stackAddr (s.sp + 1)) (pull s).1 :: s.trace ∧
    (Memory.wf s.mem = true → isIo s.cfg (stackAddr s.sp) = false →
      (pull (push v s)).1 = v ∧ (pull (push v s)).2.sp = s.sp) ∧
    keepsMemoryBut [stackAddr s.sp] s (push v s) ∧ keepsMemory s (pull s).2

/-- R24, R27, R28, R164: the places of the bits in a pushed status byte and in the register view; the six flags of a pulled byte are those
it was pushed from, and its bits 5 and 4 do not matter. -/
def Obligations.StatusByteHasItsLayout : Prop :=
  (∀ (f : Flags) (b : Bool),
    (pushedP f b).getLsbD 7 = f.n ∧ (pushedP f b).getLsbD 6 = f.v ∧ (pushedP f b).getLsbD 5 = true ∧
    (pushedP f b).getLsbD 4 = b ∧ (pushedP f b).getLsbD 3 = f.d ∧ (pushedP f b).getLsbD 2 = f.i ∧
    (pushedP f b).getLsbD 1 = f.z ∧ (pushedP f b).getLsbD 0 = f.c ∧ registerView f = pushedP f false) ∧
  (∀ (f : Flags) (b : Bool), flagsOfByte (pushedP f b) = f) ∧
  (∀ p q : Byte, p &&& 0xCF = q &&& 0xCF → flagsOfByte p = flagsOfByte q)

/-! ## Load, store, transfer, stack -/

/-- R131, R132, R133: the byte the mode gives goes into the named register; Z and N describe it. -/
def Obligations.LoadsWriteTheirRegister : Prop :=
  ∀ (i : Instr) (s : State), i.mnemonic = .lda ∨ i.mnemonic = .ldx ∨ i.mnemonic = .ldy → ∃ t, exec i s = .next t ∧
    t.a = (if i.mnemonic = .lda then operandByte i.form s else s.a) ∧
    t.x = (if i.mnemonic = .ldx then operandByte i.form s else s.x) ∧
    t.y = (if i.mnemonic = .ldy then operandByte i.form s else s.y) ∧
    t.sp = s.sp ∧ t.flags = flagsOfResult (operandByte i.form s) s.flags ∧ keepsMemory s t ∧ keepsControl s t

/-- R134, R135, R136: the register's value goes to the effective address, and nothing else changes but PC, the history and the counter. -/
def Obligations.StoresWriteTheEffectiveAddress : Prop :=
  ∀ (i : Instr) (s : State), i.mnemonic = .sta ∨ i.mnemonic = .stx ∨ i.mnemonic = .sty → ∃ t ea v,
    exec i s = .next t ∧ effectiveAddress i.form s = some ea ∧
    v = (if i.mnemonic = .sta then s.a else if i.mnemonic = .stx then s.x else s.y) ∧
    t.trace = .write ea v :: (resolve i.form s).state.trace ∧
    (Memory.wf s.mem = true → isIo s.cfg ea = false → t.peek ea = v) ∧
    keepsMemoryBut [ea] s t ∧ keepsRegisters s t ∧ t.flags = s.flags ∧ keepsControl s t

/-- R137-R143: each transfer copies one register into another; "all but TXS update Z/N". -/
def Obligations.TransfersCopyARegister : Prop :=
  ∀ s : State, ∃ tax txa tay tya tsx txs : State,
    (exec .tax s = .next tax ∧ tax.x = s.a ∧ tax.a = s.a ∧ tax.y = s.y ∧ tax.sp = s.sp ∧ tax.flags = flagsOfResult s.a s.flags) ∧
    (exec .txa s = .next txa ∧ txa.a = s.x ∧ txa.x = s.x ∧ txa.y = s.y ∧ txa.sp = s.sp ∧ txa.flags = flagsOfResult s.x s.flags) ∧
    (exec .tay s = .next tay ∧ tay.y = s.a ∧ tay.a = s.a ∧ tay.x = s.x ∧ tay.sp = s.sp ∧ tay.flags = flagsOfResult s.a s.flags) ∧
    (exec .tya s = .next tya ∧ tya.a = s.y ∧ tya.x = s.x ∧ tya.y = s.y ∧ tya.sp = s.sp ∧ tya.flags = flagsOfResult s.y s.flags) ∧
    (exec .tsx s = .next tsx ∧ tsx.x = s.sp ∧ tsx.a = s.a ∧ tsx.y = s.y ∧ tsx.sp = s.sp ∧ tsx.flags = flagsOfResult s.sp s.flags) ∧
    (exec .txs s = .next txs ∧ txs.sp = s.x ∧ txs.a = s.a ∧ txs.x = s.x ∧ txs.y = s.y ∧ txs.flags = s.flags) ∧
    ∀ t ∈ [tax, txa, tay, tya, tsx, txs], keepsMemory s t ∧ keepsControl s t ∧ t.pc = s.pc ∧ t.trace = s.trace

/-- R161, R163: PHA pushes A, PHP pushes the status byte with B and bit 5 set; only SP and the stack byte change. -/
def Obligations.PushInstructionsStoreOneStackByte : Prop :=
  ∀ (i : Instr) (s : State), i = .pha ∨ i = .php → ∃ t v, exec i s = .next t ∧
    v = (if i = .pha then s.a else registerView s.flags ||| 0x30) ∧
    t.trace = .write (stackAddr s.sp) v :: s.trace ∧ t.sp = s.sp - 1 ∧
    (Memory.wf s.mem = true → isIo s.cfg (stackAddr s.sp) = false → t.peek (stackAddr s.sp) = v) ∧
    keepsMemoryBut [stackAddr s.sp] s t ∧ t.a = s.a ∧ t.x = s.x ∧ t.y = s.y ∧ t.flags = s.flags ∧ t.pc = s.pc ∧ keepsControl s t

/-- R162, R164: PLA pulls into A and sets Z and N; PLP pulls the six flags and discards bits 5 and 4. -/
def Obligations.PullInstructionsReadOneStackByte : Prop :=
  ∀ s : State, ∃ pla plp : State,
    let v := s.answer (stackAddr (s.sp + 1))
    (exec .pla s = .next pla ∧ pla.a = v ∧ pla.flags = flagsOfResult v s.flags) ∧
    (exec .plp s = .next plp ∧ plp.a = s.a ∧ registerView plp.flags = (v &&& 0xCF) ||| 0x20) ∧
    ∀ t ∈ [pla, plp], t.sp = s.sp + 1 ∧ t.x = s.x ∧ t.y = s.y ∧ t.pc = s.pc ∧ keepsMemory s t ∧ keepsControl s t ∧
      t.trace = .read (stackAddr (s.sp + 1)) v :: s.trace

/-- R162: "pushing A then immediately pulling into A leaves A unchanged and SP restored to its original value". -/
def Obligations.PushThenPullRestoresAAndSP : Prop :=
  ∀ s : State, Memory.wf s.mem = true → isIo s.cfg (stackAddr s.sp) = false →
    ∃ t u, exec .pha s = .next t ∧ exec .pla t = .next u ∧ u.a = s.a ∧ u.sp = s.sp ∧ u.flags = flagsOfResult s.a s.flags

/-! ## Arithmetic -/

/-- R181: the sum modulo 256, C "when the unsigned result overflows 8 bits", V "iff both operands have the same sign and the result's
sign differs from theirs", which is when the signed sum leaves -128..127. -/
def Obligations.BinaryAdderCarriesAndOverflows : Prop :=
  ∀ (a b : Byte) (cin : Bool),
    (addCore a b cin).r.toNat = (a.toNat + b.toNat + bit cin) % 256 ∧
    (addCore a b cin).c = decide (a.toNat + b.toNat + bit cin > 255) ∧
    ((addCore a b cin).v = true ↔
      decide (128 ≤ a.toNat) = decide (128 ≤ b.toNat) ∧ decide (128 ≤ (addCore a b cin).r.toNat) ≠ decide (128 ≤ a.toNat)) ∧
    ((addCore a b cin).v = true ↔ a.toInt + b.toInt + bit cin < -128 ∨ 127 < a.toInt + b.toInt + bit cin)

/-- R182: ADC under `Binary`, or with D = 0 under any mode: A, C, V, N and Z; nothing else but PC, the history and the counter. -/
def Obligations.AdcAddsInBinary : Prop :=
  ∀ (i : Instr) (s : State), i.mnemonic = .adc → s.cfg.decimalMode = .binary ∨ s.flags.d = false → ∃ t, exec i s = .next t ∧
    let m := operandByte i.form s
    let sum := s.a.toNat + m.toNat + bit s.flags.c
    t.a.toNat = sum % 256 ∧ t.flags.c = decide (sum > 255) ∧
    t.flags.v = decide (s.a.toInt + m.toInt + bit s.flags.c < -128 ∨ 127 < s.a.toInt + m.toInt + bit s.flags.c) ∧
    t.flags.z = decide (t.a.toNat = 0) ∧ t.flags.n = decide (128 ≤ t.a.toNat) ∧ t.flags.d = s.flags.d ∧ t.flags.i = s.flags.i ∧
    t.x = s.x ∧ t.y = s.y ∧ t.sp = s.sp ∧ keepsMemory s t ∧ keepsControl s t

/-- R184: SBC under `Binary`, or with D = 0 under any mode: A − M − (1 − C) modulo 256, and "C = 1 exactly when A ≥ M + (1 − P.C)". -/
def Obligations.SbcSubtractsInBinary : Prop :=
  ∀ (i : Instr) (s : State), i.mnemonic = .sbc → s.cfg.decimalMode = .binary ∨ s.flags.d = false → ∃ t, exec i s = .next t ∧
    let m := operandByte i.form s
    let borrow := 1 - bit s.flags.c
    (t.a.toNat : Int) = ((s.a.toNat : Int) - m.toNat - borrow) % 256 ∧ t.flags.c = decide (s.a.toNat ≥ m.toNat + borrow) ∧
    t.flags.v = decide (s.a.toInt - m.toInt - borrow < -128 ∨ 127 < s.a.toInt - m.toInt - borrow) ∧
    t.flags.z = decide (t.a.toNat = 0) ∧ t.flags.n = decide (128 ≤ t.a.toNat) ∧ t.flags.d = s.flags.d ∧ t.flags.i = s.flags.i ∧
    t.x = s.x ∧ t.y = s.y ∧ t.sp = s.sp ∧ keepsMemory s t ∧ keepsControl s t

/-- R183: ADC with D = 1 under `NmosBcd`, for any operands: Z is that of the binary sum; on two decimal digits each, A and C are the decimal
sum and its carry. -/
def Obligations.AdcAddsDecimalDigits : Prop :=
  ∀ (i : Instr) (s : State), i.mnemonic = .adc → s.cfg.decimalMode = .nmosBcd → s.flags.d = true → ∃ t, exec i s = .next t ∧
    let m := operandByte i.form s
    let sum := bcdValue s.a + bcdValue m + bit s.flags.c
    (isBcd s.a → isBcd m → isBcd t.a ∧ bcdValue t.a = sum % 100 ∧ t.flags.c = decide (sum ≥ 100)) ∧
    t.a = (decAdd s.a m s.flags.c).r ∧ t.flags.c = (decAdd s.a m s.flags.c).c ∧
    t.flags.v = (decAdd s.a m s.flags.c).v ∧ t.flags.n = (decAdd s.a m s.flags.c).n ∧
    t.flags.z = decide ((s.a.toNat + m.toNat + bit s.flags.c) % 256 = 0) ∧ t.flags.d = s.flags.d ∧ t.flags.i = s.flags.i ∧
    t.x = s.x ∧ t.y = s.y ∧ t.sp = s.sp ∧ keepsMemory s t ∧ keepsControl s t

/-- R183: SBC with D = 1 under `NmosBcd`, for any operands: the flags are those of the binary subtraction; on two decimal digits each, A is
the decimal difference. -/
def Obligations.SbcSubtractsDecimalDigits : Prop :=
  ∀ (i : Instr) (s : State), i.mnemonic = .sbc → s.cfg.decimalMode = .nmosBcd → s.flags.d = true → ∃ t, exec i s = .next t ∧
    let m := operandByte i.form s
    let borrow := 1 - bit s.flags.c
    let binary := (s.a.toNat + 256 - m.toNat + 256 - borrow) % 256
    (isBcd s.a → isBcd m → isBcd t.a ∧ (bcdValue t.a : Int) = ((bcdValue s.a : Int) - bcdValue m - borrow) % 100) ∧
    t.a = (decSub s.a m s.flags.c).r ∧ t.flags.c = decide (s.a.toNat ≥ m.toNat + borrow) ∧
    t.flags.v = decide (s.a.toInt - m.toInt - borrow < -128 ∨ 127 < s.a.toInt - m.toInt - borrow) ∧
    t.flags.z = decide (binary = 0) ∧ t.flags.n = decide (128 ≤ binary) ∧ t.flags.d = s.flags.d ∧ t.flags.i = s.flags.i ∧
    t.x = s.x ∧ t.y = s.y ∧ t.sp = s.sp ∧ keepsMemory s t ∧ keepsControl s t

/-- R302, R182, R184: with D = 1 under `Refuse`, ADC and SBC in every form are refused before the operand is resolved, and the state left has
one tick charged, `fsm` at `Faulted(DecimalUnmodelled)`, and everything else as the opcode fetch left it. -/
def Obligations.DecimalArithmeticIsRefused : Prop :=
  ∀ (i : Instr) (s : State), i.mnemonic = .adc ∨ i.mnemonic = .sbc → s.cfg.decimalMode = .refuse → s.flags.d = true →
    exec i s = .refused (.decimalUnmodelled { s with cycles := s.cycles + 1, fsm := .faulted .decimalUnmodelled })

/-- R182, R10: "Under `DECIMAL_MODE = Binary` (the default) D has no effect" on A and the other five flags, for ADC and SBC. -/
def Obligations.DecimalFlagHasNoEffectUnderBinary : Prop :=
  ∀ (i : Instr) (s : State) (d : Bool), i.mnemonic = .adc ∨ i.mnemonic = .sbc → s.cfg.decimalMode = .binary →
    ∃ t, exec i s = .next t ∧
      exec i (s.setFlags { s.flags with d := d }) = .next (t.setFlags { t.flags with d := d })

/-- R186, R187, R188: A with the operand, bit by bit; Z and N describe the result. -/
def Obligations.LogicCombinesAWithTheOperand : Prop :=
  ∀ (i : Instr) (s : State), i.mnemonic = .and ∨ i.mnemonic = .ora ∨ i.mnemonic = .eor → ∃ t, exec i s = .next t ∧
    (∀ k, k < 8 → t.a.getLsbD k =
      (if i.mnemonic = .and then (s.a.getLsbD k && (operandByte i.form s).getLsbD k)
       else if i.mnemonic = .ora then (s.a.getLsbD k || (operandByte i.form s).getLsbD k)
       else (s.a.getLsbD k ^^ (operandByte i.form s).getLsbD k))) ∧
    t.flags = flagsOfResult t.a s.flags ∧ t.x = s.x ∧ t.y = s.y ∧ t.sp = s.sp ∧ keepsMemory s t ∧ keepsControl s t

/-- R189: BIT takes N and V from the operand itself and Z from its AND with A, and writes no register. -/
def Obligations.BitTestsTheOperand : Prop :=
  ∀ (i : Instr) (s : State), i.mnemonic = .bit → ∃ t, exec i s = .next t ∧
    t.flags.z = decide (s.a &&& operandByte i.form s = 0) ∧ t.flags.n = decide (128 ≤ (operandByte i.form s).toNat) ∧
    t.flags.v = decide (64 ≤ (operandByte i.form s).toNat % 128) ∧
    t.flags.c = s.flags.c ∧ t.flags.d = s.flags.d ∧ t.flags.i = s.flags.i ∧
    keepsRegisters s t ∧ keepsMemory s t ∧ keepsControl s t

/-- R211-R214: C when register ≥ operand, Z when they are equal, N from register − operand; V and the registers unchanged. -/
def Obligations.ComparesSetCarryZeroNegative : Prop :=
  ∀ (i : Instr) (s : State), i.mnemonic = .cmp ∨ i.mnemonic = .cpx ∨ i.mnemonic = .cpy → ∃ t, exec i s = .next t ∧
    let r := if i.mnemonic = .cmp then s.a else if i.mnemonic = .cpx then s.x else s.y
    let m := operandByte i.form s
    t.flags.c = decide (r.toNat ≥ m.toNat) ∧ t.flags.z = decide (r = m) ∧
    t.flags.n = decide (128 ≤ (r.toNat + 256 - m.toNat) % 256) ∧
    t.flags.v = s.flags.v ∧ t.flags.d = s.flags.d ∧ t.flags.i = s.flags.i ∧
    keepsRegisters s t ∧ keepsMemory s t ∧ keepsControl s t

/-! ## Shift, rotate, increment, decrement -/

/-- R200-R204, R73: the accumulator forms of ASL, LSR, ROL and ROR. -/
def Obligations.ShiftsOfTheAccumulator : Prop :=
  ∀ (i : Instr) (s : State), i = .aslA ∨ i = .lsrA ∨ i = .rolA ∨ i = .rorA → ∃ t, exec i s = .next t ∧
    t.a.toNat = shiftedValue i.mnemonic s.a s.flags.c ∧
    t.flags = { flagsOfResult t.a s.flags with c := shiftedOut i.mnemonic s.a } ∧
    t.x = s.x ∧ t.y = s.y ∧ t.sp = s.sp ∧ t.pc = s.pc ∧ t.trace = s.trace ∧ keepsMemory s t ∧ keepsControl s t

/-- R200-R204: the memory forms of ASL, LSR, ROL and ROR: one read, then one write of the result, both at the effective address. -/
def Obligations.ShiftsOfMemory : Prop :=
  ∀ (i : Instr) (s : State), i.mnemonic = .asl ∨ i.mnemonic = .lsr ∨ i.mnemonic = .rol ∨ i.mnemonic = .ror → i.form ≠ .implied →
    ∃ t ea r, exec i s = .next t ∧ effectiveAddress i.form s = some ea ∧
      let v := operandByte i.form s
      r.toNat = shiftedValue i.mnemonic v s.flags.c ∧
      t.trace = .write ea r :: .read ea v :: (resolve i.form s).state.trace ∧
      (Memory.wf s.mem = true → isIo s.cfg ea = false → t.peek ea = r) ∧ keepsMemoryBut [ea] s t ∧
      t.flags = { flagsOfResult r s.flags with c := shiftedOut i.mnemonic v } ∧ keepsRegisters s t ∧ keepsControl s t

/-- R205, R206: INC and DEC wrap modulo 256 and write Z and N only. -/
def Obligations.IncrementAndDecrementMemory : Prop :=
  ∀ (i : Instr) (s : State), i.mnemonic = .inc ∨ i.mnemonic = .dec →
    ∃ t ea r, exec i s = .next t ∧ effectiveAddress i.form s = some ea ∧
      let v := operandByte i.form s
      r.toNat = (if i.mnemonic = .inc then (v.toNat + 1) % 256 else (v.toNat + 255) % 256) ∧
      t.trace = .write ea r :: .read ea v :: (resolve i.form s).state.trace ∧
      (Memory.wf s.mem = true → isIo s.cfg ea = false → t.peek ea = r) ∧ keepsMemoryBut [ea] s t ∧
      t.flags = flagsOfResult r s.flags ∧ keepsRegisters s t ∧ keepsControl s t

/-- R207-R210: INX, DEX, INY and DEY wrap modulo 256 and write Z and N only. -/
def Obligations.IncrementAndDecrementIndex : Prop :=
  ∀ (i : Instr) (s : State), i = .inx ∨ i = .dex ∨ i = .iny ∨ i = .dey → ∃ t, exec i s = .next t ∧
    t.x.toNat = (if i = .inx then (s.x.toNat + 1) % 256 else if i = .dex then (s.x.toNat + 255) % 256 else s.x.toNat) ∧
    t.y.toNat = (if i = .iny then (s.y.toNat + 1) % 256 else if i = .dey then (s.y.toNat + 255) % 256 else s.y.toNat) ∧
    t.flags = flagsOfResult (if i = .inx ∨ i = .dex then t.x else t.y) s.flags ∧
    t.a = s.a ∧ t.sp = s.sp ∧ t.pc = s.pc ∧ t.trace = s.trace ∧ keepsMemory s t ∧ keepsControl s t

/-! ## Control transfer -/

/-- R230-R238: a branch goes to its target when the flag it names is as the mnemonic says, and else past itself; it writes nothing but PC,
and makes no access but its operand byte. -/
def Obligations.BranchesTestTheirFlag : Prop :=
  ∀ (i : Instr) (s : State), isBranch i.mnemonic = true → ∃ t d, exec i s = .next t ∧ i.form = .relative d ∧
    (branchTaken i.mnemonic s.flags = true → (t.pc.toNat : Int) = ((s.pc + 1).toNat + d.toInt) % 65536) ∧
    (branchTaken i.mnemonic s.flags = false → t.pc = s.pc + 1) ∧
    t.trace = .read s.pc d :: s.trace ∧ t.flags = s.flags ∧ keepsRegisters s t ∧ keepsMemory s t ∧ keepsControl s t

/-- R240, R110: JMP Absolute goes to its operand word; JMP Indirect to the word of the two bytes it reads, wherever they stand: the low one
at its pointer and the high one from the pointer's own page. -/
def Obligations.JumpsSetPC : Prop :=
  (∀ (s : State) (w : Word), ∃ t, exec (.jmpAbs w) s = .next t ∧ t.pc = w ∧
    eventsBetween s t = [.read s.pc (lo8 w), .read (s.pc + 1) (hi8 w)] ∧
    t.flags = s.flags ∧ keepsRegisters s t ∧ keepsMemory s t ∧ keepsControl s t) ∧
  (∀ (s : State) (p hiAddr : Word), hiAddr.toNat = p.toNat / 256 * 256 + (p.toNat + 1) % 256 → ∃ t, exec (.jmpInd p) s = .next t ∧
    (∃ lo hi : Byte, eventsBetween s t =
        [.read s.pc (lo8 p), .read (s.pc + 1) (hi8 p), .read p lo, .read hiAddr hi] ∧ t.pc = word hi lo ∧
      (isIo s.cfg p = false → lo = s.peek p) ∧ (isIo s.cfg hiAddr = false → hi = s.peek hiAddr)) ∧
    t.flags = s.flags ∧ keepsRegisters s t ∧ keepsMemory s t ∧ keepsControl s t)

/-- R241: JSR pushes the address of its own last byte, high byte then low byte, and jumps. `s.pc` is the address after the opcode. -/
def Obligations.JsrPushesItsLastAddress : Prop :=
  ∀ (s : State) (w : Word), ∃ t, exec (.jsr w) s = .next t ∧ t.pc = w ∧ t.sp = s.sp - 2 ∧
    eventsBetween s t = [.read s.pc (lo8 w), .read (s.pc + 1) (hi8 w),
      .write (stackAddr s.sp) (hi8 (s.pc + 1)), .write (stackAddr (s.sp - 1)) (lo8 (s.pc + 1))] ∧
    (Memory.wf s.mem = true → isIo s.cfg (stackAddr s.sp) = false → t.peek (stackAddr s.sp) = hi8 (s.pc + 1)) ∧
    (Memory.wf s.mem = true → isIo s.cfg (stackAddr (s.sp - 1)) = false → t.peek (stackAddr (s.sp - 1)) = lo8 (s.pc + 1)) ∧
    keepsMemoryBut [stackAddr s.sp, stackAddr (s.sp - 1)] s t ∧
    t.a = s.a ∧ t.x = s.x ∧ t.y = s.y ∧ t.flags = s.flags ∧ keepsControl s t

/-- R242, R243: RTS pulls PC low then high and adds 1; RTI pulls the six flags and then PC with no + 1. -/
def Obligations.ReturnsPullPC : Prop :=
  ∀ s : State, ∃ rts rti : State,
    (let lo := s.answer (stackAddr (s.sp + 1))
     let hi := (s.record (.read (stackAddr (s.sp + 1)) lo)).answer (stackAddr (s.sp + 2))
     exec .rts s = .next rts ∧ rts.pc = word hi lo + 1 ∧ rts.sp = s.sp + 2 ∧ rts.flags = s.flags ∧
     rts.trace = .read (stackAddr (s.sp + 2)) hi :: .read (stackAddr (s.sp + 1)) lo :: s.trace) ∧
    (let p := s.answer (stackAddr (s.sp + 1))
     let u := s.record (.read (stackAddr (s.sp + 1)) p)
     let lo := u.answer (stackAddr (s.sp + 2))
     let hi := (u.record (.read (stackAddr (s.sp + 2)) lo)).answer (stackAddr (s.sp + 3))
     exec .rti s = .next rti ∧ rti.pc = word hi lo ∧ rti.sp = s.sp + 3 ∧ registerView rti.flags = (p &&& 0xCF) ||| 0x20 ∧
     rti.trace = .read (stackAddr (s.sp + 3)) hi :: .read (stackAddr (s.sp + 2)) lo :: .read (stackAddr (s.sp + 1)) p :: s.trace) ∧
    ∀ t ∈ [rts, rti], t.a = s.a ∧ t.x = s.x ∧ t.y = s.y ∧ keepsMemory s t ∧ keepsControl s t

/-- R241, R242: RTS after JSR goes to the instruction after the JSR, with SP restored, where the stack page is RAM. -/
def Obligations.ReturnFollowsCall : Prop :=
  ∀ (s : State) (w : Word), Memory.wf s.mem = true → isIo s.cfg (stackAddr s.sp) = false →
    isIo s.cfg (stackAddr (s.sp - 1)) = false →
    ∃ t u, exec (.jsr w) s = .next t ∧ exec .rts t = .next u ∧ u.pc = s.pc + 2 ∧ u.sp = s.sp ∧ u.flags = s.flags

/-- R260-R268: each flag operation writes its one flag and has "no other effect"; NOP has none. -/
def Obligations.FlagOperationsWriteOneFlag : Prop :=
  ∀ (i : Instr) (s : State), i = .clc ∨ i = .sec ∨ i = .cli ∨ i = .sei ∨ i = .cld ∨ i = .sed ∨ i = .clv ∨ i = .nop →
    ∃ t, exec i s = .next t ∧
      t.flags.c = (if i = .clc then false else if i = .sec then true else s.flags.c) ∧
      t.flags.i = (if i = .cli then false else if i = .sei then true else s.flags.i) ∧
      t.flags.d = (if i = .cld then false else if i = .sed then true else s.flags.d) ∧
      t.flags.v = (if i = .clv then false else s.flags.v) ∧
      t.flags.z = s.flags.z ∧ t.flags.n = s.flags.n ∧
      keepsRegisters s t ∧ t.pc = s.pc ∧ t.trace = s.trace ∧ keepsMemory s t ∧ keepsControl s t

/-! ## Interrupts -/

/-- R269, R313: BRK pushes the address of BRK + 2, high byte then low byte, and the status byte with B = 1, sets I and loads PC from
0xFFFE/0xFFFF; it is not masked by I, and the byte after the opcode is not read. `s.pc` is the address after the opcode. -/
def Obligations.BrkTakesTheInterrupt : Prop :=
  ∀ s : State, ∃ t, exec .brk s = .next t ∧
    (∃ lo hi : Byte, eventsBetween s t = [.write (stackAddr s.sp) (hi8 (s.pc + 1)), .write (stackAddr (s.sp - 1)) (lo8 (s.pc + 1)),
      .write (stackAddr (s.sp - 2)) (registerView s.flags ||| 0x30), .read 0xFFFE lo, .read 0xFFFF hi] ∧ t.pc = word hi lo ∧
      (isIo s.cfg 0xFFFE = false → isIo s.cfg 0xFFFF = false → lo = s.peek 0xFFFE ∧ hi = s.peek 0xFFFF)) ∧
    t.sp = s.sp - 3 ∧ t.flags = { s.flags with i := true } ∧ t.a = s.a ∧ t.x = s.x ∧ t.y = s.y ∧
    keepsMemoryBut [stackAddr s.sp, stackAddr (s.sp - 1), stackAddr (s.sp - 2)] s t ∧
    t.fsm = .running ∧ t.resetPending = s.resetPending ∧ t.nmiPending = s.nmiPending ∧ t.irqLine = s.irqLine ∧ t.cfg = s.cfg

/-- R312, R313, R315, R316: a latched NMI is taken whatever I and the IRQ line are, when no Reset is pending: PC and the status byte with
B = 0 are pushed, I is set, PC comes from 0xFFFA/0xFFFB, the latch is cleared, 7 ticks are charged, and no instruction runs. -/
def Obligations.NmiIsTakenAtTheBoundary : Prop :=
  ∀ s : State, s.fsm = .running → s.resetPending = false → s.nmiPending = true → ∃ t, step s = .next t ∧
    (∃ lo hi : Byte, eventsBetween s t = [.write (stackAddr s.sp) (hi8 s.pc), .write (stackAddr (s.sp - 1)) (lo8 s.pc),
      .write (stackAddr (s.sp - 2)) (registerView s.flags), .read 0xFFFA lo, .read 0xFFFB hi] ∧ t.pc = word hi lo ∧
      (isIo s.cfg 0xFFFA = false → isIo s.cfg 0xFFFB = false → lo = s.peek 0xFFFA ∧ hi = s.peek 0xFFFB)) ∧
    t.sp = s.sp - 3 ∧ t.flags = { s.flags with i := true } ∧ t.a = s.a ∧ t.x = s.x ∧ t.y = s.y ∧
    keepsMemoryBut [stackAddr s.sp, stackAddr (s.sp - 1), stackAddr (s.sp - 2)] s t ∧ t.cycles = s.cycles + 7 ∧
    t.fsm = .running ∧ t.resetPending = false ∧ t.nmiPending = false ∧ t.irqLine = s.irqLine ∧ t.cfg = s.cfg

/-- R312, R313, R315, R316: an IRQ is taken when the line is high, I = 0 and neither Reset nor NMI wins: as the NMI, but with B = 1 and the
vector 0xFFFE/0xFFFF, and the line stays as the host left it. -/
def Obligations.IrqIsTakenWhenIIsClear : Prop :=
  ∀ s : State, s.fsm = .running → s.resetPending = false → s.nmiPending = false → s.irqLine = true → s.flags.i = false →
    ∃ t, step s = .next t ∧
    (∃ lo hi : Byte, eventsBetween s t = [.write (stackAddr s.sp) (hi8 s.pc), .write (stackAddr (s.sp - 1)) (lo8 s.pc),
      .write (stackAddr (s.sp - 2)) (registerView s.flags ||| 0x30), .read 0xFFFE lo, .read 0xFFFF hi] ∧ t.pc = word hi lo ∧
      (isIo s.cfg 0xFFFE = false → isIo s.cfg 0xFFFF = false → lo = s.peek 0xFFFE ∧ hi = s.peek 0xFFFF)) ∧
    t.sp = s.sp - 3 ∧ t.flags = { s.flags with i := true } ∧ t.a = s.a ∧ t.x = s.x ∧ t.y = s.y ∧
    keepsMemoryBut [stackAddr s.sp, stackAddr (s.sp - 1), stackAddr (s.sp - 2)] s t ∧ t.cycles = s.cycles + 7 ∧
    t.fsm = .running ∧ t.resetPending = false ∧ t.nmiPending = false ∧ t.irqLine = true ∧ t.cfg = s.cfg

/-- R313, R320: RTI right after an interrupt entry of any kind gives back PC, the six flags (I among them) and SP, where the stack page is
RAM, "and nothing checks" which entry it was. -/
def Obligations.RtiUndoesAnInterruptEntry : Prop :=
  ∀ (s : State) (k : InterruptKind), Memory.wf s.mem = true →
    isIo s.cfg (stackAddr s.sp) = false → isIo s.cfg (stackAddr (s.sp - 1)) = false → isIo s.cfg (stackAddr (s.sp - 2)) = false →
    ∃ u, exec .rti (interruptSequence k s) = .next u ∧ u.pc = s.pc ∧ u.flags = s.flags ∧ u.sp = s.sp ∧
      u.a = s.a ∧ u.x = s.x ∧ u.y = s.y

/-! ## Errors -/

/-- R300, R78, R11: an undefined opcode byte under `Fail`, or absent from the alias table, ends the Step with the error that names the byte
and its own address; the Step has made one read and charged one tick, PC is past the byte, `fsm` is `Faulted`, and no register, flag
or byte of memory has changed. -/
def Obligations.UndefinedOpcodeFails : Prop :=
  ∀ (s : State) (op : Byte), s.executes → decode (fetchBytes s) = .error (.undefinedOpcode op) →
    (s.cfg.illegalPolicy = .fail ∨ ∃ table, s.cfg.illegalPolicy = .aliased table ∧ ∀ e ∈ table, e.1 ≠ op) →
    step s = .fault (.unimplementedOpcode op s.pc
      { s with pc := s.pc + 1, trace := .read s.pc op :: s.trace, cycles := s.cycles + 1,
               fsm := .faulted (.unimplementedOpcode op s.pc) })

/-- R304: "Faulted is absorbing": a Step in it answers the same outcome again and changes nothing, unless a Reset is pending. -/
def Obligations.FaultedStepsRepeatTheirOutcome : Prop :=
  ∀ (s : State) (e : StepError), s.fsm = .faulted e → s.resetPending = false →
    step s = report e s ∧ resultState (step s) = some s ∧ ∀ t, step s ≠ .next t

/-- R78, R82, R83: under `Alias(table)` an undefined byte of the table runs the table's behaviour for it to its end, after the opcode
fetch, or, if it is marked decimal, is refused before its first access with D = 1 under `Refuse`. That refusal is this model's choice,
since R302 names ADC and SBC only; the table's representation and the behaviours' type are its choice too (log entry 3). -/
def Obligations.AliasedOpcodeRunsItsBehaviour : Prop :=
  ∀ (s : State) (op : Byte) (table : List (Byte × Nat)) (k : Nat), s.executes →
    decode (fetchBytes s) = .error (.undefinedOpcode op) → s.cfg.illegalPolicy = .aliased table → s.cfg.wf = true →
    (op, k) ∈ table →
    step s =
      if (Config.aliasBehaviour k).decimal = true ∧ s.flags.d = true ∧ s.cfg.decimalMode = .refuse then
        .refused (.decimalUnmodelled
          { s with pc := s.pc + 1, trace := .read s.pc op :: s.trace, cycles := s.cycles + 1, fsm := .faulted .decimalUnmodelled })
      else .next (runAlias ((Config.aliasBehaviour k).program (afterOpcode s).registers) (afterOpcode s))

/-- R303, R83: "Nothing else is an error". Every instruction completes on every operand in every state, but for ADC and SBC where R302
refuses them; and "there is no partial-failure state": a Step in `Running`, of whatever kind and under whatever policy, is `Ok`, or it
reports one of two errors and leaves the machine as the opcode fetch left it, with one tick charged and `fsm` at `Faulted`. That an
aliased byte may be such a Step is this model's choice (log entry 3). -/
def Obligations.NothingElseIsAnError : Prop :=
  (∀ (i : Instr) (s : State), ¬((i.mnemonic = .adc ∨ i.mnemonic = .sbc) ∧ s.cfg.decimalMode = .refuse ∧ s.flags.d = true) →
    ∃ t, exec i s = .next t) ∧
  (∀ s : State, s.fsm = .running → (∃ t, step s = .next t) ∨
    ∃ e, (e = .unimplementedOpcode (s.answer s.pc) s.pc ∨ e = .decimalUnmodelled) ∧
      step s = report e { s with pc := s.pc + 1, trace := .read s.pc (s.answer s.pc) :: s.trace, cycles := s.cycles + 1,
                                 fsm := .faulted e })

/-! ## The whole machine -/

/-- R29: no instruction writes a flag but those the table lists for it. -/
def Obligations.FlagsHaveOnlyTheirWriters : Prop :=
  ∀ (i : Instr) (s t : State), exec i s = .next t →
    (writesC i.mnemonic = false → t.flags.c = s.flags.c) ∧
    (writesZN i.mnemonic = false → t.flags.z = s.flags.z ∧ t.flags.n = s.flags.n) ∧
    (writesI i.mnemonic = false → t.flags.i = s.flags.i) ∧ (writesD i.mnemonic = false → t.flags.d = s.flags.d) ∧
    (writesV i.mnemonic = false → t.flags.v = s.flags.v)

/-- R21, R31: no instruction writes A, X, Y or SP but those the tables list. -/
def Obligations.RegistersHaveOnlyTheirWriters : Prop :=
  ∀ (i : Instr) (s t : State), exec i s = .next t →
    (writesA i = false → t.a = s.a) ∧ (writesX i = false → t.x = s.x) ∧ (writesY i = false → t.y = s.y) ∧
    (writesSP i = false → t.sp = s.sp)

/-- R51, R32, R311: an instruction that the table does not list as a writer changes no byte of memory and makes no write; and no
instruction changes a request input or the configuration. -/
def Obligations.MemoryHasOnlyItsWriters : Prop :=
  ∀ (i : Instr) (s t : State), exec i s = .next t →
    (writesMemory i = false → keepsMemory s t ∧ ∀ addr v, BusEvent.write addr v ∉ eventsBetween s t) ∧
    t.resetPending = s.resetPending ∧ t.nmiPending = s.nmiPending ∧ t.irqLine = s.irqLine ∧ t.cfg = s.cfg

/-- R22, R100: PC is past the instruction's bytes afterwards, but for the instructions that set it, and wraps modulo 65536. -/
def Obligations.InstructionsMovePCPastTheirBytes : Prop :=
  ∀ (i : Instr) (s t : State), exec i s = .next t → setsPC i.mnemonic = false →
    t.pc.toNat = (s.pc.toNat + i.form.mode.operandBytes) % 65536

/-- R354, R355, R356: an instruction charges its base count, one more when it is read-class and its AbsoluteX, AbsoluteY or IndirectY address
crosses a page, and one more when it is a taken branch, with another when the target is on another page. -/
def Obligations.InstructionsChargeTheirTicks : Prop :=
  ∀ (i : Instr) (s t : State), exec i s = .next t →
    t.cycles = s.cycles + baseCount i.mnemonic i.form.mode +
      (if isReadClass i.mnemonic = true ∧ (i.form.mode = .absoluteX ∨ i.form.mode = .absoluteY ∨ i.form.mode = .indirectY) ∧
          (resolve i.form s).crossed = true then 1 else 0) +
      (if isBranch i.mnemonic = true ∧ branchTaken i.mnemonic s.flags = true then 1 + bit (resolve i.form s).crossed else 0)

/-- R115, R59: the accesses of an instruction, in order, are the Resolver's reads, then the handler's access to its operand, then its
stack and vector accesses; no dummy access is made. -/
def Obligations.BusEventsAreExactlyTheNeededOnes : Prop :=
  ∀ (i : Instr) (s t : State), exec i s = .next t →
    (eventsBetween s t).map accessOf =
      (resolverReads i.form s).map .read ++ operandAccesses i.mnemonic (effectiveAddress i.form s) ++ stackAccesses i.mnemonic s.sp

/-- R50, R32: every Step keeps memory in its canonical form, within the 65536 addresses, and the configuration one the platform can have;
an error keeps them too. -/
def Obligations.StepKeepsTheInvariant : Prop :=
  ∀ s t : State, s.Inv → resultState (step s) = some t → t.Inv

/-- The model's reset state meets the invariant. -/
def Obligations.ResetMeetsTheInvariant : Prop := State.reset.Inv ∧ ∀ i, i ∈ State.reset.mem → False

/-- R52, R61: from any state whose history and memory agree, every Step leads to one: each read of RAM has returned the last write to its
address before it, or the initial image; each read of an I/O region, what the oracle answered to the history. -/
def Obligations.StepKeepsMemoryCoherent : Prop :=
  ∀ (image : Memory) (s t : State), s.Coherent image → resultState (step s) = some t → t.Coherent image

/-- R354, R358: no rule reads the counter: two machines that differ in it alone take the same Steps. -/
def Obligations.CounterIsOutputOnly : Prop :=
  ∀ (s : State) (n : Nat), step (s.tick n) = Result.later n (step s)
end

