-- ==== Sys2Proof/Laws/Bits.lean ====
section
/-! SUPPORT. Bytes and words: concatenation and its parts, sign bits, and P as a byte. -/

namespace Sys2Proof.Machine

@[simp] theorem word_toNat (hi lo : Byte) : (word hi lo).toNat = hi.toNat * 256 + lo.toNat := by
  have := lo.isLt
  simp only [word, BitVec.toNat_append]
  rw [← Nat.shiftLeft_add_eq_or_of_lt (by omega), Nat.shiftLeft_eq]

@[simp] theorem lo8_toNat (w : Word) : (lo8 w).toNat = w.toNat % 256 := by
  simp [lo8, BitVec.extractLsb'_toNat]

@[simp] theorem hi8_toNat (w : Word) : (hi8 w).toNat = w.toNat / 256 := by
  have := w.isLt
  simp [hi8, BitVec.extractLsb'_toNat, Nat.shiftRight_eq_div_pow]
  omega

@[simp] theorem word_hi8_lo8 (w : Word) : word (hi8 w) (lo8 w) = w := by
  apply BitVec.eq_of_toNat_eq
  simp
  omega

@[simp] theorem lo8_word (hi lo : Byte) : lo8 (word hi lo) = lo := by
  apply BitVec.eq_of_toNat_eq
  have := lo.isLt
  simp
  omega

@[simp] theorem hi8_word (hi lo : Byte) : hi8 (word hi lo) = hi := by
  apply BitVec.eq_of_toNat_eq
  have := lo.isLt
  simp
  omega

/-- Bit 7 is the sign: the byte is at least 128. -/
theorem getLsbD_seven (v : Byte) : v.getLsbD 7 = decide (128 ≤ v.toNat) := by
  revert v
  decide

/-- Bit 0 is the remainder by two. -/
theorem getLsbD_zero (v : Byte) : v.getLsbD 0 = decide (v.toNat % 2 = 1) := by
  revert v
  decide

/-- A byte is zero exactly when it is the number 0. -/
theorem beq_zero (v : Byte) : (v == 0) = decide (v.toNat = 0) := by
  revert v
  decide

/-- The six flags come back from a pushed status byte, whatever its B bit (R28, R164). -/
@[simp] theorem flagsOfByte_pushedP (f : Flags) (b : Bool) : flagsOfByte (pushedP f b) = f := by
  obtain ⟨n, v, d, i, z, c⟩ := f
  revert n v d i z c b
  decide

/-- The page-cross test (R113), in numbers. -/
theorem pageDiffers_eq (a b : Word) : pageDiffers a b = decide (a.toNat / 256 ≠ b.toNat / 256) := by
  simp only [pageDiffers, ← hi8_toNat, ne_eq, BitVec.toNat_inj]
  by_cases h : hi8 a = hi8 b <;> simp [h]

/-- An index register added to a word wraps modulo 65536. -/
theorem add_index_toNat (w : Word) (index : Byte) : (w + index.setWidth 16).toNat = (w.toNat + index.toNat) % 65536 := by
  have := index.isLt
  simp [BitVec.toNat_add]

/-- A sign-extended byte added to a word, in numbers (R106). -/
theorem add_sext16_toNat (w : Word) (d : Byte) : ((w + sext16 d).toNat : Int) = (w.toNat + d.toInt) % 65536 := by
  have k : ∀ x : Word, (x.toNat : Int) = x.toInt % 65536 := by
    intro x
    have := x.isLt
    rw [BitVec.toInt_eq_toNat_bmod]
    refine (Eq.trans (Int.bmod_emod (m := 65536)) ?_).symm
    omega
  rw [k, BitVec.toInt_add, sext16, BitVec.toInt_signExtend_of_le (by omega), BitVec.toInt_eq_toNat_bmod (x := w)]
  simp only [Int.bmod_add_bmod]
  exact Int.bmod_emod (m := 65536)

end Sys2Proof.Machine
end

