-- ==== Sys2Proof/Laws/Memory.lean ====
section
/-! SUPPORT. Memory: a read after a write, and the canonical form that every write keeps. -/

namespace Sys2Proof.Machine

theorem Memory.wf_iff {m : Memory} :
    Memory.wf m = true ↔ m.Pairwise (fun c d => c.1 < d.1) ∧ ∀ c ∈ m, c.1 < 65536 ∧ c.2 ≠ Memory.unlisted := by
  simp [Memory.wf]

theorem Memory.wf_nil : Memory.wf [] = true := by decide

/-- An address below every listed one reads as an unlisted address does. -/
theorem Memory.read_of_lt {m : Memory} {n : Nat} (h : ∀ c ∈ m, n < c.1) : Memory.read m n = Memory.unlisted := by
  induction m with
  | nil => rfl
  | cons c m ih =>
    obtain ⟨k, b⟩ := c
    have hk : n < k := h (k, b) (by simp)
    have : k ≠ n := by omega
    simp only [Memory.read, this, if_false]
    exact ih fun c hc => h c (by simp [hc])

/-- A write leaves every other address alone. -/
theorem Memory.read_write_ne {m : Memory} {n : Nat} (v : Byte) (k : Nat) (h : k ≠ n) :
    Memory.read (Memory.write m n v) k = Memory.read m k := by
  induction m with
  | nil =>
    have : n ≠ k := fun e => h e.symm
    unfold Memory.write
    split <;> simp [Memory.read, this]
  | cons c m ih =>
    obtain ⟨j, b⟩ := c
    have hn : n ≠ k := fun e => h e.symm
    unfold Memory.write
    split
    · split <;> simp [Memory.read, hn]
    · split
      · rename_i _ hj
        subst hj
        split <;> simp [Memory.read, hn]
      · simp only [Memory.read, ih]

/-- The address written reads as the byte written. -/
theorem Memory.read_write_eq {m : Memory} (hw : Memory.wf m = true) (n : Nat) (v : Byte) :
    Memory.read (Memory.write m n v) n = v := by
  rw [Memory.wf_iff] at hw
  obtain ⟨hp, -⟩ := hw
  induction m with
  | nil =>
    unfold Memory.write
    split <;> simp_all [Memory.read]
  | cons c m ih =>
    obtain ⟨j, b⟩ := c
    rw [List.pairwise_cons] at hp
    unfold Memory.write
    split
    · rename_i hlt
      split
      · rename_i hv
        rw [hv]
        refine Memory.read_of_lt fun c hc => ?_
        rcases List.mem_cons.1 hc with rfl | hc
        · exact hlt
        · exact Nat.lt_trans hlt (hp.1 c hc)
      · simp [Memory.read]
    · split
      · rename_i _ hj
        subst hj
        split
        · rename_i hv
          rw [hv]
          exact Memory.read_of_lt hp.1
        · simp [Memory.read]
      · rename_i hj
        have : j ≠ n := fun e => hj e.symm
        simp only [Memory.read, this, if_false]
        exact ih hp.2

/-- Nothing but the address written and what was listed before is listed after a write. -/
theorem Memory.mem_write {m : Memory} {n : Nat} {v : Byte} {c : Host.Cell} (h : c ∈ Memory.write m n v) :
    (c = (n, v) ∧ v ≠ Memory.unlisted) ∨ c ∈ m := by
  induction m with
  | nil =>
    unfold Memory.write at h
    split at h <;> simp_all
  | cons d m ih =>
    obtain ⟨j, b⟩ := d
    unfold Memory.write at h
    split at h
    · split at h <;> simp_all
    · split at h
      · split at h
        · exact .inr (by simp [h])
        · rcases List.mem_cons.1 h with h | h <;> simp_all
      · rcases List.mem_cons.1 h with h | h
        · exact .inr (by simp [h])
        · exact (ih h).imp_right (fun h => by simp [h])

/-- A write keeps the canonical form. -/
theorem Memory.write_wf {m : Memory} (hw : Memory.wf m = true) {n : Nat} (hn : n < 65536) (v : Byte) :
    Memory.wf (Memory.write m n v) = true := by
  rw [Memory.wf_iff] at hw ⊢
  refine ⟨?_, fun c hc => ?_⟩
  · obtain ⟨hp, -⟩ := hw
    induction m with
    | nil =>
      unfold Memory.write
      split <;> simp
    | cons d m ih =>
      obtain ⟨j, b⟩ := d
      have hp' := List.pairwise_cons.1 hp
      unfold Memory.write
      split
      · rename_i hlt
        split
        · exact hp
        · refine List.pairwise_cons.2 ⟨fun c hc => ?_, hp⟩
          rcases List.mem_cons.1 hc with rfl | hc
          · exact hlt
          · exact Nat.lt_trans hlt (hp'.1 c hc)
      · split
        · rename_i _ hj
          subst hj
          split
          · exact hp'.2
          · exact List.pairwise_cons.2 ⟨hp'.1, hp'.2⟩
        · refine List.pairwise_cons.2 ⟨fun c hc => ?_, ih hp'.2⟩
          rcases Memory.mem_write hc with ⟨rfl, -⟩ | hc
          · show j < n
            omega
          · exact hp'.1 c hc
  · rcases Memory.mem_write hc with ⟨rfl, hv⟩ | hc
    · exact ⟨hn, hv⟩
    · exact hw.2 c hc

end Sys2Proof.Machine
end

