-- ==== Sys2Proof/Laws/State.lean ====
section
/-! SUPPORT. One lemma for each field of State and each one-field update of it. -/

namespace Sys2Proof.Machine

/-- Two states that agree in every field are equal. -/
@[ext] theorem State.ext {s t : State} (h0 : s.a = t.a) (h1 : s.x = t.x) (h2 : s.y = t.y) (h3 : s.sp = t.sp) (h4 : s.pc = t.pc)
    (h5 : s.flags = t.flags) (h6 : s.fsm = t.fsm) (h7 : s.resetPending = t.resetPending) (h8 : s.nmiPending = t.nmiPending) (h9
    : s.irqLine = t.irqLine) (h10 : s.mem = t.mem) (h11 : s.cycles = t.cycles) (h12 : s.trace = t.trace) (h13 : s.cfg = t.cfg) :
    s = t := by
  cases s; cases t; simp_all

variable (s : State)

@[simp] theorem State.setA_a (v : Byte) : (s.setA v).a = v := rfl
@[simp] theorem State.setA_x (v : Byte) : (s.setA v).x = s.x := rfl
@[simp] theorem State.setA_y (v : Byte) : (s.setA v).y = s.y := rfl
@[simp] theorem State.setA_sp (v : Byte) : (s.setA v).sp = s.sp := rfl
@[simp] theorem State.setA_pc (v : Byte) : (s.setA v).pc = s.pc := rfl
@[simp] theorem State.setA_flags (v : Byte) : (s.setA v).flags = s.flags := rfl
@[simp] theorem State.setA_fsm (v : Byte) : (s.setA v).fsm = s.fsm := rfl
@[simp] theorem State.setA_resetPending (v : Byte) : (s.setA v).resetPending = s.resetPending := rfl
@[simp] theorem State.setA_nmiPending (v : Byte) : (s.setA v).nmiPending = s.nmiPending := rfl
@[simp] theorem State.setA_irqLine (v : Byte) : (s.setA v).irqLine = s.irqLine := rfl
@[simp] theorem State.setA_mem (v : Byte) : (s.setA v).mem = s.mem := rfl
@[simp] theorem State.setA_cycles (v : Byte) : (s.setA v).cycles = s.cycles := rfl
@[simp] theorem State.setA_trace (v : Byte) : (s.setA v).trace = s.trace := rfl
@[simp] theorem State.setA_cfg (v : Byte) : (s.setA v).cfg = s.cfg := rfl

@[simp] theorem State.setX_a (v : Byte) : (s.setX v).a = s.a := rfl
@[simp] theorem State.setX_x (v : Byte) : (s.setX v).x = v := rfl
@[simp] theorem State.setX_y (v : Byte) : (s.setX v).y = s.y := rfl
@[simp] theorem State.setX_sp (v : Byte) : (s.setX v).sp = s.sp := rfl
@[simp] theorem State.setX_pc (v : Byte) : (s.setX v).pc = s.pc := rfl
@[simp] theorem State.setX_flags (v : Byte) : (s.setX v).flags = s.flags := rfl
@[simp] theorem State.setX_fsm (v : Byte) : (s.setX v).fsm = s.fsm := rfl
@[simp] theorem State.setX_resetPending (v : Byte) : (s.setX v).resetPending = s.resetPending := rfl
@[simp] theorem State.setX_nmiPending (v : Byte) : (s.setX v).nmiPending = s.nmiPending := rfl
@[simp] theorem State.setX_irqLine (v : Byte) : (s.setX v).irqLine = s.irqLine := rfl
@[simp] theorem State.setX_mem (v : Byte) : (s.setX v).mem = s.mem := rfl
@[simp] theorem State.setX_cycles (v : Byte) : (s.setX v).cycles = s.cycles := rfl
@[simp] theorem State.setX_trace (v : Byte) : (s.setX v).trace = s.trace := rfl
@[simp] theorem State.setX_cfg (v : Byte) : (s.setX v).cfg = s.cfg := rfl

@[simp] theorem State.setY_a (v : Byte) : (s.setY v).a = s.a := rfl
@[simp] theorem State.setY_x (v : Byte) : (s.setY v).x = s.x := rfl
@[simp] theorem State.setY_y (v : Byte) : (s.setY v).y = v := rfl
@[simp] theorem State.setY_sp (v : Byte) : (s.setY v).sp = s.sp := rfl
@[simp] theorem State.setY_pc (v : Byte) : (s.setY v).pc = s.pc := rfl
@[simp] theorem State.setY_flags (v : Byte) : (s.setY v).flags = s.flags := rfl
@[simp] theorem State.setY_fsm (v : Byte) : (s.setY v).fsm = s.fsm := rfl
@[simp] theorem State.setY_resetPending (v : Byte) : (s.setY v).resetPending = s.resetPending := rfl
@[simp] theorem State.setY_nmiPending (v : Byte) : (s.setY v).nmiPending = s.nmiPending := rfl
@[simp] theorem State.setY_irqLine (v : Byte) : (s.setY v).irqLine = s.irqLine := rfl
@[simp] theorem State.setY_mem (v : Byte) : (s.setY v).mem = s.mem := rfl
@[simp] theorem State.setY_cycles (v : Byte) : (s.setY v).cycles = s.cycles := rfl
@[simp] theorem State.setY_trace (v : Byte) : (s.setY v).trace = s.trace := rfl
@[simp] theorem State.setY_cfg (v : Byte) : (s.setY v).cfg = s.cfg := rfl

@[simp] theorem State.setSP_a (v : Byte) : (s.setSP v).a = s.a := rfl
@[simp] theorem State.setSP_x (v : Byte) : (s.setSP v).x = s.x := rfl
@[simp] theorem State.setSP_y (v : Byte) : (s.setSP v).y = s.y := rfl
@[simp] theorem State.setSP_sp (v : Byte) : (s.setSP v).sp = v := rfl
@[simp] theorem State.setSP_pc (v : Byte) : (s.setSP v).pc = s.pc := rfl
@[simp] theorem State.setSP_flags (v : Byte) : (s.setSP v).flags = s.flags := rfl
@[simp] theorem State.setSP_fsm (v : Byte) : (s.setSP v).fsm = s.fsm := rfl
@[simp] theorem State.setSP_resetPending (v : Byte) : (s.setSP v).resetPending = s.resetPending := rfl
@[simp] theorem State.setSP_nmiPending (v : Byte) : (s.setSP v).nmiPending = s.nmiPending := rfl
@[simp] theorem State.setSP_irqLine (v : Byte) : (s.setSP v).irqLine = s.irqLine := rfl
@[simp] theorem State.setSP_mem (v : Byte) : (s.setSP v).mem = s.mem := rfl
@[simp] theorem State.setSP_cycles (v : Byte) : (s.setSP v).cycles = s.cycles := rfl
@[simp] theorem State.setSP_trace (v : Byte) : (s.setSP v).trace = s.trace := rfl
@[simp] theorem State.setSP_cfg (v : Byte) : (s.setSP v).cfg = s.cfg := rfl

@[simp] theorem State.setPC_a (w : Word) : (s.setPC w).a = s.a := rfl
@[simp] theorem State.setPC_x (w : Word) : (s.setPC w).x = s.x := rfl
@[simp] theorem State.setPC_y (w : Word) : (s.setPC w).y = s.y := rfl
@[simp] theorem State.setPC_sp (w : Word) : (s.setPC w).sp = s.sp := rfl
@[simp] theorem State.setPC_pc (w : Word) : (s.setPC w).pc = w := rfl
@[simp] theorem State.setPC_flags (w : Word) : (s.setPC w).flags = s.flags := rfl
@[simp] theorem State.setPC_fsm (w : Word) : (s.setPC w).fsm = s.fsm := rfl
@[simp] theorem State.setPC_resetPending (w : Word) : (s.setPC w).resetPending = s.resetPending := rfl
@[simp] theorem State.setPC_nmiPending (w : Word) : (s.setPC w).nmiPending = s.nmiPending := rfl
@[simp] theorem State.setPC_irqLine (w : Word) : (s.setPC w).irqLine = s.irqLine := rfl
@[simp] theorem State.setPC_mem (w : Word) : (s.setPC w).mem = s.mem := rfl
@[simp] theorem State.setPC_cycles (w : Word) : (s.setPC w).cycles = s.cycles := rfl
@[simp] theorem State.setPC_trace (w : Word) : (s.setPC w).trace = s.trace := rfl
@[simp] theorem State.setPC_cfg (w : Word) : (s.setPC w).cfg = s.cfg := rfl

@[simp] theorem State.setFlags_a (f : Flags) : (s.setFlags f).a = s.a := rfl
@[simp] theorem State.setFlags_x (f : Flags) : (s.setFlags f).x = s.x := rfl
@[simp] theorem State.setFlags_y (f : Flags) : (s.setFlags f).y = s.y := rfl
@[simp] theorem State.setFlags_sp (f : Flags) : (s.setFlags f).sp = s.sp := rfl
@[simp] theorem State.setFlags_pc (f : Flags) : (s.setFlags f).pc = s.pc := rfl
@[simp] theorem State.setFlags_flags (f : Flags) : (s.setFlags f).flags = f := rfl
@[simp] theorem State.setFlags_fsm (f : Flags) : (s.setFlags f).fsm = s.fsm := rfl
@[simp] theorem State.setFlags_resetPending (f : Flags) : (s.setFlags f).resetPending = s.resetPending := rfl
@[simp] theorem State.setFlags_nmiPending (f : Flags) : (s.setFlags f).nmiPending = s.nmiPending := rfl
@[simp] theorem State.setFlags_irqLine (f : Flags) : (s.setFlags f).irqLine = s.irqLine := rfl
@[simp] theorem State.setFlags_mem (f : Flags) : (s.setFlags f).mem = s.mem := rfl
@[simp] theorem State.setFlags_cycles (f : Flags) : (s.setFlags f).cycles = s.cycles := rfl
@[simp] theorem State.setFlags_trace (f : Flags) : (s.setFlags f).trace = s.trace := rfl
@[simp] theorem State.setFlags_cfg (f : Flags) : (s.setFlags f).cfg = s.cfg := rfl

@[simp] theorem State.setFsm_a (q : Fsm) : (s.setFsm q).a = s.a := rfl
@[simp] theorem State.setFsm_x (q : Fsm) : (s.setFsm q).x = s.x := rfl
@[simp] theorem State.setFsm_y (q : Fsm) : (s.setFsm q).y = s.y := rfl
@[simp] theorem State.setFsm_sp (q : Fsm) : (s.setFsm q).sp = s.sp := rfl
@[simp] theorem State.setFsm_pc (q : Fsm) : (s.setFsm q).pc = s.pc := rfl
@[simp] theorem State.setFsm_flags (q : Fsm) : (s.setFsm q).flags = s.flags := rfl
@[simp] theorem State.setFsm_fsm (q : Fsm) : (s.setFsm q).fsm = q := rfl
@[simp] theorem State.setFsm_resetPending (q : Fsm) : (s.setFsm q).resetPending = s.resetPending := rfl
@[simp] theorem State.setFsm_nmiPending (q : Fsm) : (s.setFsm q).nmiPending = s.nmiPending := rfl
@[simp] theorem State.setFsm_irqLine (q : Fsm) : (s.setFsm q).irqLine = s.irqLine := rfl
@[simp] theorem State.setFsm_mem (q : Fsm) : (s.setFsm q).mem = s.mem := rfl
@[simp] theorem State.setFsm_cycles (q : Fsm) : (s.setFsm q).cycles = s.cycles := rfl
@[simp] theorem State.setFsm_trace (q : Fsm) : (s.setFsm q).trace = s.trace := rfl
@[simp] theorem State.setFsm_cfg (q : Fsm) : (s.setFsm q).cfg = s.cfg := rfl

@[simp] theorem State.setResetPending_a (b : Bool) : (s.setResetPending b).a = s.a := rfl
@[simp] theorem State.setResetPending_x (b : Bool) : (s.setResetPending b).x = s.x := rfl
@[simp] theorem State.setResetPending_y (b : Bool) : (s.setResetPending b).y = s.y := rfl
@[simp] theorem State.setResetPending_sp (b : Bool) : (s.setResetPending b).sp = s.sp := rfl
@[simp] theorem State.setResetPending_pc (b : Bool) : (s.setResetPending b).pc = s.pc := rfl
@[simp] theorem State.setResetPending_flags (b : Bool) : (s.setResetPending b).flags = s.flags := rfl
@[simp] theorem State.setResetPending_fsm (b : Bool) : (s.setResetPending b).fsm = s.fsm := rfl
@[simp] theorem State.setResetPending_resetPending (b : Bool) : (s.setResetPending b).resetPending = b := rfl
@[simp] theorem State.setResetPending_nmiPending (b : Bool) : (s.setResetPending b).nmiPending = s.nmiPending := rfl
@[simp] theorem State.setResetPending_irqLine (b : Bool) : (s.setResetPending b).irqLine = s.irqLine := rfl
@[simp] theorem State.setResetPending_mem (b : Bool) : (s.setResetPending b).mem = s.mem := rfl
@[simp] theorem State.setResetPending_cycles (b : Bool) : (s.setResetPending b).cycles = s.cycles := rfl
@[simp] theorem State.setResetPending_trace (b : Bool) : (s.setResetPending b).trace = s.trace := rfl
@[simp] theorem State.setResetPending_cfg (b : Bool) : (s.setResetPending b).cfg = s.cfg := rfl

@[simp] theorem State.setNmiPending_a (b : Bool) : (s.setNmiPending b).a = s.a := rfl
@[simp] theorem State.setNmiPending_x (b : Bool) : (s.setNmiPending b).x = s.x := rfl
@[simp] theorem State.setNmiPending_y (b : Bool) : (s.setNmiPending b).y = s.y := rfl
@[simp] theorem State.setNmiPending_sp (b : Bool) : (s.setNmiPending b).sp = s.sp := rfl
@[simp] theorem State.setNmiPending_pc (b : Bool) : (s.setNmiPending b).pc = s.pc := rfl
@[simp] theorem State.setNmiPending_flags (b : Bool) : (s.setNmiPending b).flags = s.flags := rfl
@[simp] theorem State.setNmiPending_fsm (b : Bool) : (s.setNmiPending b).fsm = s.fsm := rfl
@[simp] theorem State.setNmiPending_resetPending (b : Bool) : (s.setNmiPending b).resetPending = s.resetPending := rfl
@[simp] theorem State.setNmiPending_nmiPending (b : Bool) : (s.setNmiPending b).nmiPending = b := rfl
@[simp] theorem State.setNmiPending_irqLine (b : Bool) : (s.setNmiPending b).irqLine = s.irqLine := rfl
@[simp] theorem State.setNmiPending_mem (b : Bool) : (s.setNmiPending b).mem = s.mem := rfl
@[simp] theorem State.setNmiPending_cycles (b : Bool) : (s.setNmiPending b).cycles = s.cycles := rfl
@[simp] theorem State.setNmiPending_trace (b : Bool) : (s.setNmiPending b).trace = s.trace := rfl
@[simp] theorem State.setNmiPending_cfg (b : Bool) : (s.setNmiPending b).cfg = s.cfg := rfl

@[simp] theorem State.setIrqLine_a (b : Bool) : (s.setIrqLine b).a = s.a := rfl
@[simp] theorem State.setIrqLine_x (b : Bool) : (s.setIrqLine b).x = s.x := rfl
@[simp] theorem State.setIrqLine_y (b : Bool) : (s.setIrqLine b).y = s.y := rfl
@[simp] theorem State.setIrqLine_sp (b : Bool) : (s.setIrqLine b).sp = s.sp := rfl
@[simp] theorem State.setIrqLine_pc (b : Bool) : (s.setIrqLine b).pc = s.pc := rfl
@[simp] theorem State.setIrqLine_flags (b : Bool) : (s.setIrqLine b).flags = s.flags := rfl
@[simp] theorem State.setIrqLine_fsm (b : Bool) : (s.setIrqLine b).fsm = s.fsm := rfl
@[simp] theorem State.setIrqLine_resetPending (b : Bool) : (s.setIrqLine b).resetPending = s.resetPending := rfl
@[simp] theorem State.setIrqLine_nmiPending (b : Bool) : (s.setIrqLine b).nmiPending = s.nmiPending := rfl
@[simp] theorem State.setIrqLine_irqLine (b : Bool) : (s.setIrqLine b).irqLine = b := rfl
@[simp] theorem State.setIrqLine_mem (b : Bool) : (s.setIrqLine b).mem = s.mem := rfl
@[simp] theorem State.setIrqLine_cycles (b : Bool) : (s.setIrqLine b).cycles = s.cycles := rfl
@[simp] theorem State.setIrqLine_trace (b : Bool) : (s.setIrqLine b).trace = s.trace := rfl
@[simp] theorem State.setIrqLine_cfg (b : Bool) : (s.setIrqLine b).cfg = s.cfg := rfl

@[simp] theorem State.setMem_a (m : Memory) : (s.setMem m).a = s.a := rfl
@[simp] theorem State.setMem_x (m : Memory) : (s.setMem m).x = s.x := rfl
@[simp] theorem State.setMem_y (m : Memory) : (s.setMem m).y = s.y := rfl
@[simp] theorem State.setMem_sp (m : Memory) : (s.setMem m).sp = s.sp := rfl
@[simp] theorem State.setMem_pc (m : Memory) : (s.setMem m).pc = s.pc := rfl
@[simp] theorem State.setMem_flags (m : Memory) : (s.setMem m).flags = s.flags := rfl
@[simp] theorem State.setMem_fsm (m : Memory) : (s.setMem m).fsm = s.fsm := rfl
@[simp] theorem State.setMem_resetPending (m : Memory) : (s.setMem m).resetPending = s.resetPending := rfl
@[simp] theorem State.setMem_nmiPending (m : Memory) : (s.setMem m).nmiPending = s.nmiPending := rfl
@[simp] theorem State.setMem_irqLine (m : Memory) : (s.setMem m).irqLine = s.irqLine := rfl
@[simp] theorem State.setMem_mem (m : Memory) : (s.setMem m).mem = m := rfl
@[simp] theorem State.setMem_cycles (m : Memory) : (s.setMem m).cycles = s.cycles := rfl
@[simp] theorem State.setMem_trace (m : Memory) : (s.setMem m).trace = s.trace := rfl
@[simp] theorem State.setMem_cfg (m : Memory) : (s.setMem m).cfg = s.cfg := rfl

@[simp] theorem State.record_a (e : BusEvent) : (s.record e).a = s.a := rfl
@[simp] theorem State.record_x (e : BusEvent) : (s.record e).x = s.x := rfl
@[simp] theorem State.record_y (e : BusEvent) : (s.record e).y = s.y := rfl
@[simp] theorem State.record_sp (e : BusEvent) : (s.record e).sp = s.sp := rfl
@[simp] theorem State.record_pc (e : BusEvent) : (s.record e).pc = s.pc := rfl
@[simp] theorem State.record_flags (e : BusEvent) : (s.record e).flags = s.flags := rfl
@[simp] theorem State.record_fsm (e : BusEvent) : (s.record e).fsm = s.fsm := rfl
@[simp] theorem State.record_resetPending (e : BusEvent) : (s.record e).resetPending = s.resetPending := rfl
@[simp] theorem State.record_nmiPending (e : BusEvent) : (s.record e).nmiPending = s.nmiPending := rfl
@[simp] theorem State.record_irqLine (e : BusEvent) : (s.record e).irqLine = s.irqLine := rfl
@[simp] theorem State.record_mem (e : BusEvent) : (s.record e).mem = s.mem := rfl
@[simp] theorem State.record_cycles (e : BusEvent) : (s.record e).cycles = s.cycles := rfl
@[simp] theorem State.record_trace (e : BusEvent) : (s.record e).trace = e :: s.trace := rfl
@[simp] theorem State.record_cfg (e : BusEvent) : (s.record e).cfg = s.cfg := rfl

@[simp] theorem State.tick_a (n : Nat) : (s.tick n).a = s.a := rfl
@[simp] theorem State.tick_x (n : Nat) : (s.tick n).x = s.x := rfl
@[simp] theorem State.tick_y (n : Nat) : (s.tick n).y = s.y := rfl
@[simp] theorem State.tick_sp (n : Nat) : (s.tick n).sp = s.sp := rfl
@[simp] theorem State.tick_pc (n : Nat) : (s.tick n).pc = s.pc := rfl
@[simp] theorem State.tick_flags (n : Nat) : (s.tick n).flags = s.flags := rfl
@[simp] theorem State.tick_fsm (n : Nat) : (s.tick n).fsm = s.fsm := rfl
@[simp] theorem State.tick_resetPending (n : Nat) : (s.tick n).resetPending = s.resetPending := rfl
@[simp] theorem State.tick_nmiPending (n : Nat) : (s.tick n).nmiPending = s.nmiPending := rfl
@[simp] theorem State.tick_irqLine (n : Nat) : (s.tick n).irqLine = s.irqLine := rfl
@[simp] theorem State.tick_mem (n : Nat) : (s.tick n).mem = s.mem := rfl
@[simp] theorem State.tick_cycles (n : Nat) : (s.tick n).cycles = s.cycles + n := rfl
@[simp] theorem State.tick_trace (n : Nat) : (s.tick n).trace = s.trace := rfl
@[simp] theorem State.tick_cfg (n : Nat) : (s.tick n).cfg = s.cfg := rfl

end Sys2Proof.Machine
end

