-- ==== Sys2Proof/Laws/Ops.lean ====
section
/-! SUPPORT. Once for each shared operation: what it reads and writes, field by field, and every byte of memory after it. -/

namespace Sys2Proof.Machine

variable (s : State)

@[simp] theorem busRead_fst (addr : Word) : (busRead addr s).1 = s.answer addr := rfl
@[simp] theorem fetch8_fst : (fetch8 s).1 = s.answer s.pc := rfl
@[simp] theorem pull_fst : (pull s).1 = s.answer (stackAddr (s.sp + 1)) := rfl
@[simp] theorem readPointer_fst (p q : Word) :
    (readPointer p q s).1 = word ((busRead p s).2.answer q) (s.answer p) := rfl

@[simp] theorem busRead_a (addr : Word) : (busRead addr s).2.a = s.a := rfl
@[simp] theorem busRead_x (addr : Word) : (busRead addr s).2.x = s.x := rfl
@[simp] theorem busRead_y (addr : Word) : (busRead addr s).2.y = s.y := rfl
@[simp] theorem busRead_sp (addr : Word) : (busRead addr s).2.sp = s.sp := rfl
@[simp] theorem busRead_pc (addr : Word) : (busRead addr s).2.pc = s.pc := rfl
@[simp] theorem busRead_flags (addr : Word) : (busRead addr s).2.flags = s.flags := rfl
@[simp] theorem busRead_fsm (addr : Word) : (busRead addr s).2.fsm = s.fsm := rfl
@[simp] theorem busRead_resetPending (addr : Word) : (busRead addr s).2.resetPending = s.resetPending := rfl
@[simp] theorem busRead_nmiPending (addr : Word) : (busRead addr s).2.nmiPending = s.nmiPending := rfl
@[simp] theorem busRead_irqLine (addr : Word) : (busRead addr s).2.irqLine = s.irqLine := rfl
@[simp] theorem busRead_mem (addr : Word) : (busRead addr s).2.mem = s.mem := rfl
@[simp] theorem busRead_cycles (addr : Word) : (busRead addr s).2.cycles = s.cycles := rfl
@[simp] theorem busRead_trace (addr : Word) : (busRead addr s).2.trace = .read addr (s.answer addr) :: s.trace := rfl
@[simp] theorem busRead_cfg (addr : Word) : (busRead addr s).2.cfg = s.cfg := rfl

@[simp] theorem consume_a (v : Byte) : (consume v s).a = s.a := rfl
@[simp] theorem consume_x (v : Byte) : (consume v s).x = s.x := rfl
@[simp] theorem consume_y (v : Byte) : (consume v s).y = s.y := rfl
@[simp] theorem consume_sp (v : Byte) : (consume v s).sp = s.sp := rfl
@[simp] theorem consume_pc (v : Byte) : (consume v s).pc = s.pc + 1 := rfl
@[simp] theorem consume_flags (v : Byte) : (consume v s).flags = s.flags := rfl
@[simp] theorem consume_fsm (v : Byte) : (consume v s).fsm = s.fsm := rfl
@[simp] theorem consume_resetPending (v : Byte) : (consume v s).resetPending = s.resetPending := rfl
@[simp] theorem consume_nmiPending (v : Byte) : (consume v s).nmiPending = s.nmiPending := rfl
@[simp] theorem consume_irqLine (v : Byte) : (consume v s).irqLine = s.irqLine := rfl
@[simp] theorem consume_mem (v : Byte) : (consume v s).mem = s.mem := rfl
@[simp] theorem consume_cycles (v : Byte) : (consume v s).cycles = s.cycles := rfl
@[simp] theorem consume_trace (v : Byte) : (consume v s).trace = .read s.pc v :: s.trace := rfl
@[simp] theorem consume_cfg (v : Byte) : (consume v s).cfg = s.cfg := rfl

@[simp] theorem consumeWord_a (w : Word) : (consumeWord w s).a = s.a := rfl
@[simp] theorem consumeWord_x (w : Word) : (consumeWord w s).x = s.x := rfl
@[simp] theorem consumeWord_y (w : Word) : (consumeWord w s).y = s.y := rfl
@[simp] theorem consumeWord_sp (w : Word) : (consumeWord w s).sp = s.sp := rfl
@[simp] theorem consumeWord_pc (w : Word) : (consumeWord w s).pc = s.pc + 1 + 1 := rfl
@[simp] theorem consumeWord_flags (w : Word) : (consumeWord w s).flags = s.flags := rfl
@[simp] theorem consumeWord_fsm (w : Word) : (consumeWord w s).fsm = s.fsm := rfl
@[simp] theorem consumeWord_resetPending (w : Word) : (consumeWord w s).resetPending = s.resetPending := rfl
@[simp] theorem consumeWord_nmiPending (w : Word) : (consumeWord w s).nmiPending = s.nmiPending := rfl
@[simp] theorem consumeWord_irqLine (w : Word) : (consumeWord w s).irqLine = s.irqLine := rfl
@[simp] theorem consumeWord_mem (w : Word) : (consumeWord w s).mem = s.mem := rfl
@[simp] theorem consumeWord_cycles (w : Word) : (consumeWord w s).cycles = s.cycles := rfl
@[simp] theorem consumeWord_trace (w : Word) : (consumeWord w s).trace = .read (s.pc + 1) (hi8 w) :: .read s.pc (lo8 w) :: s.trace := rfl
@[simp] theorem consumeWord_cfg (w : Word) : (consumeWord w s).cfg = s.cfg := rfl

@[simp] theorem pull_a : (pull s).2.a = s.a := rfl
@[simp] theorem pull_x : (pull s).2.x = s.x := rfl
@[simp] theorem pull_y : (pull s).2.y = s.y := rfl
@[simp] theorem pull_sp : (pull s).2.sp = s.sp + 1 := rfl
@[simp] theorem pull_pc : (pull s).2.pc = s.pc := rfl
@[simp] theorem pull_flags : (pull s).2.flags = s.flags := rfl
@[simp] theorem pull_fsm : (pull s).2.fsm = s.fsm := rfl
@[simp] theorem pull_resetPending : (pull s).2.resetPending = s.resetPending := rfl
@[simp] theorem pull_nmiPending : (pull s).2.nmiPending = s.nmiPending := rfl
@[simp] theorem pull_irqLine : (pull s).2.irqLine = s.irqLine := rfl
@[simp] theorem pull_mem : (pull s).2.mem = s.mem := rfl
@[simp] theorem pull_cycles : (pull s).2.cycles = s.cycles := rfl
@[simp] theorem pull_trace : (pull s).2.trace = .read (stackAddr (s.sp + 1)) (s.answer (stackAddr (s.sp + 1))) :: s.trace := rfl
@[simp] theorem pull_cfg : (pull s).2.cfg = s.cfg := rfl

@[simp] theorem loadVector_a (vec : Word) : (loadVector vec s).a = s.a := rfl
@[simp] theorem loadVector_x (vec : Word) : (loadVector vec s).x = s.x := rfl
@[simp] theorem loadVector_y (vec : Word) : (loadVector vec s).y = s.y := rfl
@[simp] theorem loadVector_sp (vec : Word) : (loadVector vec s).sp = s.sp := rfl
@[simp] theorem loadVector_pc (vec : Word) : (loadVector vec s).pc = word ((busRead vec s).2.answer (vec + 1)) (s.answer vec) := rfl
@[simp] theorem loadVector_flags (vec : Word) : (loadVector vec s).flags = s.flags := rfl
@[simp] theorem loadVector_fsm (vec : Word) : (loadVector vec s).fsm = s.fsm := rfl
@[simp] theorem loadVector_resetPending (vec : Word) : (loadVector vec s).resetPending = s.resetPending := rfl
@[simp] theorem loadVector_nmiPending (vec : Word) : (loadVector vec s).nmiPending = s.nmiPending := rfl
@[simp] theorem loadVector_irqLine (vec : Word) : (loadVector vec s).irqLine = s.irqLine := rfl
@[simp] theorem loadVector_mem (vec : Word) : (loadVector vec s).mem = s.mem := rfl
@[simp] theorem loadVector_cycles (vec : Word) : (loadVector vec s).cycles = s.cycles := rfl
@[simp] theorem loadVector_trace (vec : Word) : (loadVector vec s).trace = .read (vec + 1) ((busRead vec s).2.answer (vec + 1)) :: .read vec (s.answer vec) :: s.trace := rfl
@[simp] theorem loadVector_cfg (vec : Word) : (loadVector vec s).cfg = s.cfg := rfl

@[simp] theorem readPointer_a (p q : Word) : (readPointer p q s).2.a = s.a := rfl
@[simp] theorem readPointer_x (p q : Word) : (readPointer p q s).2.x = s.x := rfl
@[simp] theorem readPointer_y (p q : Word) : (readPointer p q s).2.y = s.y := rfl
@[simp] theorem readPointer_sp (p q : Word) : (readPointer p q s).2.sp = s.sp := rfl
@[simp] theorem readPointer_pc (p q : Word) : (readPointer p q s).2.pc = s.pc := rfl
@[simp] theorem readPointer_flags (p q : Word) : (readPointer p q s).2.flags = s.flags := rfl
@[simp] theorem readPointer_fsm (p q : Word) : (readPointer p q s).2.fsm = s.fsm := rfl
@[simp] theorem readPointer_resetPending (p q : Word) : (readPointer p q s).2.resetPending = s.resetPending := rfl
@[simp] theorem readPointer_nmiPending (p q : Word) : (readPointer p q s).2.nmiPending = s.nmiPending := rfl
@[simp] theorem readPointer_irqLine (p q : Word) : (readPointer p q s).2.irqLine = s.irqLine := rfl
@[simp] theorem readPointer_mem (p q : Word) : (readPointer p q s).2.mem = s.mem := rfl
@[simp] theorem readPointer_cycles (p q : Word) : (readPointer p q s).2.cycles = s.cycles := rfl
@[simp] theorem readPointer_trace (p q : Word) : (readPointer p q s).2.trace = .read q ((busRead p s).2.answer q) :: .read p (s.answer p) :: s.trace := rfl
@[simp] theorem readPointer_cfg (p q : Word) : (readPointer p q s).2.cfg = s.cfg := rfl

@[simp] theorem failed_a (e : StepError) : (failed e s).a = s.a := rfl
@[simp] theorem failed_x (e : StepError) : (failed e s).x = s.x := rfl
@[simp] theorem failed_y (e : StepError) : (failed e s).y = s.y := rfl
@[simp] theorem failed_sp (e : StepError) : (failed e s).sp = s.sp := rfl
@[simp] theorem failed_pc (e : StepError) : (failed e s).pc = s.pc := rfl
@[simp] theorem failed_flags (e : StepError) : (failed e s).flags = s.flags := rfl
@[simp] theorem failed_fsm (e : StepError) : (failed e s).fsm = .faulted e := rfl
@[simp] theorem failed_resetPending (e : StepError) : (failed e s).resetPending = s.resetPending := rfl
@[simp] theorem failed_nmiPending (e : StepError) : (failed e s).nmiPending = s.nmiPending := rfl
@[simp] theorem failed_irqLine (e : StepError) : (failed e s).irqLine = s.irqLine := rfl
@[simp] theorem failed_mem (e : StepError) : (failed e s).mem = s.mem := rfl
@[simp] theorem failed_cycles (e : StepError) : (failed e s).cycles = s.cycles + 1 := rfl
@[simp] theorem failed_trace (e : StepError) : (failed e s).trace = s.trace := rfl
@[simp] theorem failed_cfg (e : StepError) : (failed e s).cfg = s.cfg := rfl

@[simp] theorem busWrite_a (addr : Word) (v : Byte) :
    (busWrite addr v s).a = s.a := by
  unfold busWrite
  split <;> simp_all
@[simp] theorem busWrite_x (addr : Word) (v : Byte) :
    (busWrite addr v s).x = s.x := by
  unfold busWrite
  split <;> simp_all
@[simp] theorem busWrite_y (addr : Word) (v : Byte) :
    (busWrite addr v s).y = s.y := by
  unfold busWrite
  split <;> simp_all
@[simp] theorem busWrite_sp (addr : Word) (v : Byte) :
    (busWrite addr v s).sp = s.sp := by
  unfold busWrite
  split <;> simp_all
@[simp] theorem busWrite_pc (addr : Word) (v : Byte) :
    (busWrite addr v s).pc = s.pc := by
  unfold busWrite
  split <;> simp_all
@[simp] theorem busWrite_flags (addr : Word) (v : Byte) :
    (busWrite addr v s).flags = s.flags := by
  unfold busWrite
  split <;> simp_all
@[simp] theorem busWrite_fsm (addr : Word) (v : Byte) :
    (busWrite addr v s).fsm = s.fsm := by
  unfold busWrite
  split <;> simp_all
@[simp] theorem busWrite_resetPending (addr : Word) (v : Byte) :
    (busWrite addr v s).resetPending = s.resetPending := by
  unfold busWrite
  split <;> simp_all
@[simp] theorem busWrite_nmiPending (addr : Word) (v : Byte) :
    (busWrite addr v s).nmiPending = s.nmiPending := by
  unfold busWrite
  split <;> simp_all
@[simp] theorem busWrite_irqLine (addr : Word) (v : Byte) :
    (busWrite addr v s).irqLine = s.irqLine := by
  unfold busWrite
  split <;> simp_all
@[simp] theorem busWrite_mem (addr : Word) (v : Byte) :
    (busWrite addr v s).mem = if isIo s.cfg addr then s.mem else Memory.write s.mem addr.toNat v := by
  unfold busWrite
  split <;> simp_all
@[simp] theorem busWrite_cycles (addr : Word) (v : Byte) :
    (busWrite addr v s).cycles = s.cycles := by
  unfold busWrite
  split <;> simp_all
@[simp] theorem busWrite_trace (addr : Word) (v : Byte) :
    (busWrite addr v s).trace = .write addr v :: s.trace := by
  unfold busWrite
  split <;> simp_all
@[simp] theorem busWrite_cfg (addr : Word) (v : Byte) :
    (busWrite addr v s).cfg = s.cfg := by
  unfold busWrite
  split <;> simp_all

@[simp] theorem push_a (v : Byte) :
    (push v s).a = s.a := by simp [push]
@[simp] theorem push_x (v : Byte) :
    (push v s).x = s.x := by simp [push]
@[simp] theorem push_y (v : Byte) :
    (push v s).y = s.y := by simp [push]
@[simp] theorem push_sp (v : Byte) :
    (push v s).sp = s.sp - 1 := by simp [push]
@[simp] theorem push_pc (v : Byte) :
    (push v s).pc = s.pc := by simp [push]
@[simp] theorem push_flags (v : Byte) :
    (push v s).flags = s.flags := by simp [push]
@[simp] theorem push_fsm (v : Byte) :
    (push v s).fsm = s.fsm := by simp [push]
@[simp] theorem push_resetPending (v : Byte) :
    (push v s).resetPending = s.resetPending := by simp [push]
@[simp] theorem push_nmiPending (v : Byte) :
    (push v s).nmiPending = s.nmiPending := by simp [push]
@[simp] theorem push_irqLine (v : Byte) :
    (push v s).irqLine = s.irqLine := by simp [push]
@[simp] theorem push_mem (v : Byte) :
    (push v s).mem = if isIo s.cfg (stackAddr s.sp) then s.mem else Memory.write s.mem (stackAddr s.sp).toNat v := by simp [push]
@[simp] theorem push_cycles (v : Byte) :
    (push v s).cycles = s.cycles := by simp [push]
@[simp] theorem push_trace (v : Byte) :
    (push v s).trace = .write (stackAddr s.sp) v :: s.trace := by simp [push]
@[simp] theorem push_cfg (v : Byte) :
    (push v s).cfg = s.cfg := by simp [push]

/-- What the bus answers depends on the configuration, the history and memory alone. -/
theorem answer_congr {s t : State} (hc : t.cfg = s.cfg) (ht : t.trace = s.trace) (hm : t.mem = s.mem) (addr : Word) :
    t.answer addr = s.answer addr := by
  simp [State.answer, hc, ht, hm]

/-! What the bus answers does not depend on the registers, the inputs or the counter. -/

@[simp] theorem State.setA_answer (v : Byte) (addr : Word) : (s.setA v).answer addr = s.answer addr := rfl
@[simp] theorem State.setX_answer (v : Byte) (addr : Word) : (s.setX v).answer addr = s.answer addr := rfl
@[simp] theorem State.setY_answer (v : Byte) (addr : Word) : (s.setY v).answer addr = s.answer addr := rfl
@[simp] theorem State.setSP_answer (v : Byte) (addr : Word) : (s.setSP v).answer addr = s.answer addr := rfl
@[simp] theorem State.setPC_answer (w : Word) (addr : Word) : (s.setPC w).answer addr = s.answer addr := rfl
@[simp] theorem State.setFlags_answer (f : Flags) (addr : Word) : (s.setFlags f).answer addr = s.answer addr := rfl
@[simp] theorem State.setFsm_answer (q : Fsm) (addr : Word) : (s.setFsm q).answer addr = s.answer addr := rfl
@[simp] theorem State.setResetPending_answer (b : Bool) (addr : Word) : (s.setResetPending b).answer addr = s.answer addr := rfl
@[simp] theorem State.setNmiPending_answer (b : Bool) (addr : Word) : (s.setNmiPending b).answer addr = s.answer addr := rfl
@[simp] theorem State.setIrqLine_answer (b : Bool) (addr : Word) : (s.setIrqLine b).answer addr = s.answer addr := rfl
@[simp] theorem State.tick_answer (n : Nat) (addr : Word) : (s.tick n).answer addr = s.answer addr := rfl

theorem answer_ram {s : State} {addr : Word} (h : isIo s.cfg addr = false) :
    s.answer addr = Memory.read s.mem addr.toNat := by
  simp [State.answer, h]

@[simp] theorem fetch8_snd : (fetch8 s).2 = consume (s.answer s.pc) s := rfl

/-- A write to the bus leaves every other byte alone. -/
theorem busWrite_peek_ne {addr b : Word} (v : Byte) (h : b ≠ addr) :
    Memory.read (busWrite addr v s).mem b.toNat = Memory.read s.mem b.toNat := by
  rw [busWrite_mem]
  split
  · rfl
  · exact Memory.read_write_ne _ _ (fun e => h (BitVec.eq_of_toNat_eq e))

/-- A write to RAM is what a read then gives. -/
theorem busWrite_peek_eq {addr : Word} (v : Byte) (hw : Memory.wf s.mem = true) (hio : isIo s.cfg addr = false) :
    Memory.read (busWrite addr v s).mem addr.toNat = v := by
  rw [busWrite_mem, hio]
  exact Memory.read_write_eq hw _ _

/-- A write to the bus keeps the canonical form. -/
theorem busWrite_wf (addr : Word) (v : Byte) (hw : Memory.wf s.mem = true) :
    Memory.wf (busWrite addr v s).mem = true := by
  rw [busWrite_mem]
  split
  · exact hw
  · exact Memory.write_wf hw addr.isLt v

theorem push_wf (v : Byte) (hw : Memory.wf s.mem = true) : Memory.wf (push v s).mem = true :=
  busWrite_wf s _ v hw

/-- The stack page (R30): addresses 0x0100-0x01FF. -/
theorem stackAddr_toNat (sp : Byte) : (stackAddr sp).toNat = 256 + sp.toNat := by
  have := sp.isLt
  simp [stackAddr, BitVec.toNat_add]
  omega

theorem stackAddr_inj {p q : Byte} (h : stackAddr p = stackAddr q) : p = q := by
  have := congrArg BitVec.toNat h
  rw [stackAddr_toNat, stackAddr_toNat] at this
  exact BitVec.eq_of_toNat_eq (by omega)

theorem push_peek_ne {b : Word} (v : Byte) (h : b ≠ stackAddr s.sp) :
    Memory.read (push v s).mem b.toNat = Memory.read s.mem b.toNat := busWrite_peek_ne s v h

theorem push_peek_eq (v : Byte) (hw : Memory.wf s.mem = true) (hio : isIo s.cfg (stackAddr s.sp) = false) :
    Memory.read (push v s).mem (stackAddr s.sp).toNat = v := busWrite_peek_eq s v hw hio

end Sys2Proof.Machine
end

