-- ==== Sys2Proof/Laws/Operands.lean ====
section
/-! SUPPORT. The Resolver and the shared handlers: what a resolved operand is, and once for each handler the state it gives. -/

namespace Sys2Proof.Machine

/-- Resolving consumes the operand bytes and reads pointers: PC, and the history, and nothing else. -/
theorem resolve_keeps (f : Form) (s : State) :
    let t := (resolve f s).state
    t.a = s.a ∧ t.x = s.x ∧ t.y = s.y ∧ t.sp = s.sp ∧ t.flags = s.flags ∧ t.fsm = s.fsm ∧
      t.resetPending = s.resetPending ∧ t.nmiPending = s.nmiPending ∧ t.irqLine = s.irqLine ∧ t.mem = s.mem ∧
      t.cycles = s.cycles ∧ t.cfg = s.cfg := by
  cases f <;>
    simp [resolve, resolveImplied, resolveImmediate, resolveZeroPage, resolveZeroPageX, resolveZeroPageY, resolveRelative,
      resolveAbsolute, resolveAbsoluteX, resolveAbsoluteY, resolveIndexed, resolveIndirect, resolveIndirectX, resolveIndirectY]

@[simp] theorem resolve_a (f : Form) (s : State) : (resolve f s).state.a = s.a := (resolve_keeps f s).1
@[simp] theorem resolve_x (f : Form) (s : State) : (resolve f s).state.x = s.x := (resolve_keeps f s).2.1
@[simp] theorem resolve_y (f : Form) (s : State) : (resolve f s).state.y = s.y := (resolve_keeps f s).2.2.1
@[simp] theorem resolve_sp (f : Form) (s : State) : (resolve f s).state.sp = s.sp := (resolve_keeps f s).2.2.2.1
@[simp] theorem resolve_flags (f : Form) (s : State) : (resolve f s).state.flags = s.flags :=
  (resolve_keeps f s).2.2.2.2.1
@[simp] theorem resolve_fsm (f : Form) (s : State) : (resolve f s).state.fsm = s.fsm := (resolve_keeps f s).2.2.2.2.2.1
@[simp] theorem resolve_resetPending (f : Form) (s : State) : (resolve f s).state.resetPending = s.resetPending :=
  (resolve_keeps f s).2.2.2.2.2.2.1
@[simp] theorem resolve_nmiPending (f : Form) (s : State) : (resolve f s).state.nmiPending = s.nmiPending :=
  (resolve_keeps f s).2.2.2.2.2.2.2.1
@[simp] theorem resolve_irqLine (f : Form) (s : State) : (resolve f s).state.irqLine = s.irqLine :=
  (resolve_keeps f s).2.2.2.2.2.2.2.2.1
@[simp] theorem resolve_mem (f : Form) (s : State) : (resolve f s).state.mem = s.mem :=
  (resolve_keeps f s).2.2.2.2.2.2.2.2.2.1
@[simp] theorem resolve_cycles (f : Form) (s : State) : (resolve f s).state.cycles = s.cycles :=
  (resolve_keeps f s).2.2.2.2.2.2.2.2.2.2.1
@[simp] theorem resolve_cfg (f : Form) (s : State) : (resolve f s).state.cfg = s.cfg :=
  (resolve_keeps f s).2.2.2.2.2.2.2.2.2.2.2

/-- Resolving moves PC past the operand bytes (R100). -/
@[simp] theorem resolve_pc (f : Form) (s : State) :
    (resolve f s).state.pc = s.pc + BitVec.ofNat 16 f.mode.operandBytes := by
  cases f <;>
    simp [resolve, resolveImplied, resolveImmediate, resolveZeroPage, resolveZeroPageX, resolveZeroPageY, resolveRelative,
      resolveAbsolute, resolveAbsoluteX, resolveAbsoluteY, resolveIndexed, resolveIndirect, resolveIndirectX, resolveIndirectY,
      Form.mode, Mode.operandBytes, BitVec.add_assoc]

/-- The events of resolving are the Resolver's reads (R115). -/
theorem resolve_trace (f : Form) (s : State) :
    ∃ es, (resolve f s).state.trace = es ++ s.trace ∧ es.reverse.map accessOf = (resolverReads f s).map .read := by
  cases f <;>
    simp only [resolve, resolveImplied, resolveImmediate, resolveZeroPage, resolveZeroPageX, resolveZeroPageY, resolveRelative,
      resolveAbsolute, resolveAbsoluteX, resolveAbsoluteY, resolveIndexed, resolveIndirect, resolveIndirectX, resolveIndirectY,
      resolverReads, consume_trace, consumeWord_trace, readPointer_trace]
  case implied => exact ⟨[], rfl, rfl⟩
  case immediate => exact ⟨[_], rfl, rfl⟩
  case zeroPage => exact ⟨[_], rfl, rfl⟩
  case zeroPageX => exact ⟨[_], rfl, rfl⟩
  case zeroPageY => exact ⟨[_], rfl, rfl⟩
  case relative => exact ⟨[_], rfl, rfl⟩
  case absolute => exact ⟨[_, _], rfl, rfl⟩
  case absoluteX => exact ⟨[_, _], rfl, rfl⟩
  case absoluteY => exact ⟨[_, _], rfl, rfl⟩
  case indirect => exact ⟨[_, _, _, _], rfl, rfl⟩
  case indirectX => exact ⟨[_, _, _], rfl, rfl⟩
  case indirectY => exact ⟨[_, _, _], rfl, rfl⟩

/-- Where memory is the same, every byte of it is. -/
theorem keepsMemory_of_mem {s t : State} (h : t.mem = s.mem) : keepsMemory s t := fun addr => by simp [State.peek, h]

/-- The events between two states are what the history has grown by. -/
theorem eventsBetween_of_trace {s t : State} {es : List BusEvent} (h : t.trace = es ++ s.trace) :
    eventsBetween s t = es.reverse := by
  simp [eventsBetween, h]

/-! ## Forms with an operand -/

/-- A form whose operand lies in memory. -/
def inMemory : Form → Bool
  | .zeroPage _ | .zeroPageX _ | .zeroPageY _ | .absolute _ | .absoluteX _ | .absoluteY _ | .indirectX _ | .indirectY _ => true
  | .implied | .immediate _ | .relative _ | .indirect _ => false

/-- A form whose operand a handler can read. -/
def readable : Form → Bool
  | .immediate _ => true
  | f => inMemory f

/-- The state after the operand is read. -/
def afterOperand (f : Form) (s : State) : State :=
  match (resolve f s).operand with
  | .addr ea => (busRead ea (resolve f s).state).2
  | _ => (resolve f s).state

theorem resolve_addr {f : Form} (h : inMemory f = true) (s : State) :
    ∃ ea, (resolve f s).operand = .addr ea := by
  cases f <;> first | exact ⟨_, rfl⟩ | simp [inMemory] at h

theorem effectiveAddress_eq {f : Form} {s : State} {ea : Word} (h : (resolve f s).operand = .addr ea) :
    effectiveAddress f s = some ea := by
  simp [effectiveAddress, h]

theorem readOperand_resolve {f : Form} (h : readable f = true) (s : State) :
    readOperand (resolve f s).operand (resolve f s).state = some (operandByte f s, afterOperand f s) := by
  cases f <;> first | rfl | simp [readable, inMemory] at h

/-- Reading an operand changes PC and the history, and nothing else. -/
theorem afterOperand_keeps (f : Form) (s : State) :
    let t := afterOperand f s
    t.a = s.a ∧ t.x = s.x ∧ t.y = s.y ∧ t.sp = s.sp ∧ t.flags = s.flags ∧ t.fsm = s.fsm ∧
      t.resetPending = s.resetPending ∧ t.nmiPending = s.nmiPending ∧ t.irqLine = s.irqLine ∧ t.mem = s.mem ∧
      t.cycles = s.cycles ∧ t.cfg = s.cfg ∧ t.pc = s.pc + BitVec.ofNat 16 f.mode.operandBytes := by
  unfold afterOperand
  split <;> simp

@[simp] theorem afterOperand_a (f : Form) (s : State) : (afterOperand f s).a = s.a := (afterOperand_keeps f s).1
@[simp] theorem afterOperand_x (f : Form) (s : State) : (afterOperand f s).x = s.x := (afterOperand_keeps f s).2.1
@[simp] theorem afterOperand_y (f : Form) (s : State) : (afterOperand f s).y = s.y := (afterOperand_keeps f s).2.2.1
@[simp] theorem afterOperand_sp (f : Form) (s : State) : (afterOperand f s).sp = s.sp := (afterOperand_keeps f s).2.2.2.1
@[simp] theorem afterOperand_flags (f : Form) (s : State) : (afterOperand f s).flags = s.flags :=
  (afterOperand_keeps f s).2.2.2.2.1
@[simp] theorem afterOperand_fsm (f : Form) (s : State) : (afterOperand f s).fsm = s.fsm :=
  (afterOperand_keeps f s).2.2.2.2.2.1
@[simp] theorem afterOperand_resetPending (f : Form) (s : State) : (afterOperand f s).resetPending = s.resetPending :=
  (afterOperand_keeps f s).2.2.2.2.2.2.1
@[simp] theorem afterOperand_nmiPending (f : Form) (s : State) : (afterOperand f s).nmiPending = s.nmiPending :=
  (afterOperand_keeps f s).2.2.2.2.2.2.2.1
@[simp] theorem afterOperand_irqLine (f : Form) (s : State) : (afterOperand f s).irqLine = s.irqLine :=
  (afterOperand_keeps f s).2.2.2.2.2.2.2.2.1
@[simp] theorem afterOperand_mem (f : Form) (s : State) : (afterOperand f s).mem = s.mem :=
  (afterOperand_keeps f s).2.2.2.2.2.2.2.2.2.1
@[simp] theorem afterOperand_cycles (f : Form) (s : State) : (afterOperand f s).cycles = s.cycles :=
  (afterOperand_keeps f s).2.2.2.2.2.2.2.2.2.2.1
@[simp] theorem afterOperand_cfg (f : Form) (s : State) : (afterOperand f s).cfg = s.cfg :=
  (afterOperand_keeps f s).2.2.2.2.2.2.2.2.2.2.2.1
@[simp] theorem afterOperand_pc (f : Form) (s : State) :
    (afterOperand f s).pc = s.pc + BitVec.ofNat 16 f.mode.operandBytes := (afterOperand_keeps f s).2.2.2.2.2.2.2.2.2.2.2.2

theorem afterOperand_trace {f : Form} {s : State} {ea : Word} (h : (resolve f s).operand = .addr ea) :
    (afterOperand f s).trace = .read ea (operandByte f s) :: (resolve f s).state.trace := by
  simp [afterOperand, operandByte, h]

/-! ## The shared handlers, once each -/

theorem readClass_next {f : Form} (h : readable f = true) (op : Byte) (g : Byte → State → State) (s : State) :
    readClass op f g s = .next ((g (operandByte f s) (afterOperand f s)).tick (cycles op false (resolve f s).crossed)) := by
  simp [readClass, readOperand_resolve h]

theorem storeClass_next {f : Form} {s : State} {ea : Word} (h : (resolve f s).operand = .addr ea) (op v : Byte) :
    storeClass op f v s = .next ((busWrite ea v (resolve f s).state).tick (cycles op false (resolve f s).crossed)) := by
  simp [storeClass, h, writeOperand]

theorem rmwClass_next {f : Form} {s : State} {ea : Word} (h : (resolve f s).operand = .addr ea) (op : Byte)
    (g : Byte → Flags → Modified) :
    rmwClass op f g s =
      .next ((busWrite ea (g (operandByte f s) s.flags).r
        ((afterOperand f s).setFlags (g (operandByte f s) s.flags).flags)).tick (cycles op false (resolve f s).crossed)) := by
  simp [rmwClass, h, readOperand, writeOperand, busRead, operandByte, afterOperand]

/-- What `exec` gives a branch: PC is the target when the condition holds, else past the branch (R230). -/
theorem branchClass_next (op d : Byte) (cond : Bool) (s : State) :
    branchClass op d cond s =
      .next ((if cond then (consume d s).setPC (s.pc + 1 + sext16 d) else consume d s).tick
        (cycles op cond (resolve (.relative d) s).crossed)) := rfl

end Sys2Proof.Machine
end

