-- ==== Sys2Proof/Laws/Exec.lean ====
section
/-! SUPPORT. Once for each class of instructions: which shared handler `exec` runs, with which effect. Claims about a class cite these
and the handler's lemma, and never split over all constructors again. -/

namespace Sys2Proof.Machine

/-- The effect of a read-class mnemonic on the byte read. -/
def readEffect : Mnemonic → Byte → State → State
  | .lda => loadA
  | .ldx => loadX
  | .ldy => loadY
  | .adc => adcEffect
  | .sbc => sbcEffect
  | .and => andEffect
  | .ora => oraEffect
  | .eor => eorEffect
  | .bit => bitEffect
  | .cmp => cmpEffect
  | .cpx => cpxEffect
  | .cpy => cpyEffect
  | _ => fun _ s => s

/-- The byte a store writes. -/
def storedByte : Mnemonic → State → Byte
  | .stx, s => s.x
  | .sty, s => s.y
  | _, s => s.a

/-- The byte function of a read-modify-write mnemonic. -/
def modifyByte : Mnemonic → Byte → Flags → Modified
  | .lsr => lsrByte
  | .rol => rolByte
  | .ror => rorByte
  | .inc => incByte
  | .dec => decByte
  | _ => aslByte

/-- An instruction of another class has no case to prove. -/
theorem false_class {b : Bool} {p : Prop} (hb : b = false) (h : b = true) : p := absurd (hb.symm.trans h) Bool.false_ne_true

theorem exec_read {i : Instr} (h : isReadClass i.mnemonic = true) (hd : i.mnemonic ≠ .adc ∧ i.mnemonic ≠ .sbc) (s : State) :
    exec i s = readClass i.opcode i.form (readEffect i.mnemonic) s := by
  cases i <;> first | exact false_class rfl h | rfl | exact absurd rfl hd.1 | exact absurd rfl hd.2

theorem exec_decimal {i : Instr} (h : i.mnemonic = .adc ∨ i.mnemonic = .sbc) (s : State) :
    exec i s = decimalClass i.opcode i.form (readEffect i.mnemonic) s := by
  cases i <;> first | exact false_class rfl (decide_eq_true h) | rfl

theorem form_of_read {i : Instr} (h : isReadClass i.mnemonic = true) : readable i.form = true := by
  cases i <;> first | exact false_class rfl h | rfl

theorem exec_store {i : Instr} (h : isStore i.mnemonic = true) (s : State) :
    exec i s = storeClass i.opcode i.form (storedByte i.mnemonic s) s := by
  cases i <;> first | exact false_class rfl h | rfl

theorem form_of_store {i : Instr} (h : isStore i.mnemonic = true) : inMemory i.form = true := by
  cases i <;> first | exact false_class rfl h | rfl

theorem exec_modify {i : Instr} (h : isModify i.mnemonic = true) (hf : i.form ≠ .implied) (s : State) :
    exec i s = rmwClass i.opcode i.form (modifyByte i.mnemonic) s := by
  cases i <;> first | exact false_class rfl h | exact absurd rfl hf | rfl

theorem form_of_modify {i : Instr} (h : isModify i.mnemonic = true) (hf : i.form ≠ .implied) : inMemory i.form = true := by
  cases i <;> first | exact false_class rfl h | exact absurd rfl hf | rfl

theorem exec_modifyA {i : Instr} (h : isModify i.mnemonic = true) (hf : i.form = .implied) (s : State) :
    exec i s = impliedClass i.opcode (modifyA (modifyByte i.mnemonic)) s := by
  cases i <;> first | exact false_class rfl h | exact absurd hf Form.noConfusion | rfl

theorem exec_branch {i : Instr} (h : isBranch i.mnemonic = true) (s : State) :
    ∃ d, i.form = .relative d ∧ exec i s = branchClass i.opcode d (branchTaken i.mnemonic s.flags) s := by
  cases i <;> first | exact false_class rfl h | exact ⟨_, rfl, rfl⟩

/-- The effect of an instruction that is neither read-class, store, memory read-modify-write, branch nor JMP. -/
def plainEffect : Instr → State → State
  | .tax => fun t => loadX t.a t
  | .txa => fun t => loadA t.x t
  | .tay => fun t => loadY t.a t
  | .tya => fun t => loadA t.y t
  | .tsx => fun t => loadX t.sp t
  | .txs => fun t => t.setSP t.x
  | .pha => fun t => push t.a t
  | .pla => pullA
  | .php => fun t => push (pushedP t.flags true) t
  | .plp => pullFlags
  | .aslA => modifyA aslByte
  | .lsrA => modifyA lsrByte
  | .rolA => modifyA rolByte
  | .rorA => modifyA rorByte
  | .inx => fun t => loadX (t.x + 1) t
  | .dex => fun t => loadX (t.x - 1) t
  | .iny => fun t => loadY (t.y + 1) t
  | .dey => fun t => loadY (t.y - 1) t
  | .jsr w => callSubroutine w
  | .rts => pullPC 1
  | .rti => returnFromInterrupt
  | .clc => fun t => t.setFlags { t.flags with c := false }
  | .sec => fun t => t.setFlags { t.flags with c := true }
  | .cli => fun t => t.setFlags { t.flags with i := false }
  | .sei => fun t => t.setFlags { t.flags with i := true }
  | .cld => fun t => t.setFlags { t.flags with d := false }
  | .sed => fun t => t.setFlags { t.flags with d := true }
  | .clv => fun t => t.setFlags { t.flags with v := false }
  | .brk => softwareInterrupt
  | _ => id

@[simp] theorem plainEffect_tax (s : State) : plainEffect .tax s = loadX s.a s := rfl
@[simp] theorem plainEffect_txa (s : State) : plainEffect .txa s = loadA s.x s := rfl
@[simp] theorem plainEffect_tay (s : State) : plainEffect .tay s = loadY s.a s := rfl
@[simp] theorem plainEffect_tya (s : State) : plainEffect .tya s = loadA s.y s := rfl
@[simp] theorem plainEffect_tsx (s : State) : plainEffect .tsx s = loadX s.sp s := rfl
@[simp] theorem plainEffect_txs (s : State) : plainEffect .txs s = s.setSP s.x := rfl
@[simp] theorem plainEffect_pha (s : State) : plainEffect .pha s = push s.a s := rfl
@[simp] theorem plainEffect_pla (s : State) : plainEffect .pla s = pullA s := rfl
@[simp] theorem plainEffect_php (s : State) : plainEffect .php s = push (pushedP s.flags true) s := rfl
@[simp] theorem plainEffect_plp (s : State) : plainEffect .plp s = pullFlags s := rfl
@[simp] theorem plainEffect_aslA (s : State) : plainEffect .aslA s = modifyA aslByte s := rfl
@[simp] theorem plainEffect_lsrA (s : State) : plainEffect .lsrA s = modifyA lsrByte s := rfl
@[simp] theorem plainEffect_rolA (s : State) : plainEffect .rolA s = modifyA rolByte s := rfl
@[simp] theorem plainEffect_rorA (s : State) : plainEffect .rorA s = modifyA rorByte s := rfl
@[simp] theorem plainEffect_inx (s : State) : plainEffect .inx s = loadX (s.x + 1) s := rfl
@[simp] theorem plainEffect_dex (s : State) : plainEffect .dex s = loadX (s.x - 1) s := rfl
@[simp] theorem plainEffect_iny (s : State) : plainEffect .iny s = loadY (s.y + 1) s := rfl
@[simp] theorem plainEffect_dey (s : State) : plainEffect .dey s = loadY (s.y - 1) s := rfl
@[simp] theorem plainEffect_jsr (w : Word) (s : State) : plainEffect (.jsr w) s = callSubroutine w s := rfl
@[simp] theorem plainEffect_rts (s : State) : plainEffect .rts s = pullPC 1 s := rfl
@[simp] theorem plainEffect_rti (s : State) : plainEffect .rti s = returnFromInterrupt s := rfl
@[simp] theorem plainEffect_clc (s : State) : plainEffect .clc s = s.setFlags { s.flags with c := false } := rfl
@[simp] theorem plainEffect_sec (s : State) : plainEffect .sec s = s.setFlags { s.flags with c := true } := rfl
@[simp] theorem plainEffect_cli (s : State) : plainEffect .cli s = s.setFlags { s.flags with i := false } := rfl
@[simp] theorem plainEffect_sei (s : State) : plainEffect .sei s = s.setFlags { s.flags with i := true } := rfl
@[simp] theorem plainEffect_cld (s : State) : plainEffect .cld s = s.setFlags { s.flags with d := false } := rfl
@[simp] theorem plainEffect_sed (s : State) : plainEffect .sed s = s.setFlags { s.flags with d := true } := rfl
@[simp] theorem plainEffect_clv (s : State) : plainEffect .clv s = s.setFlags { s.flags with v := false } := rfl
@[simp] theorem plainEffect_brk (s : State) : plainEffect .brk s = softwareInterrupt s := rfl
@[simp] theorem plainEffect_nop (s : State) : plainEffect .nop s = s := rfl

/-- The instructions with a `plainEffect`. -/
def isPlain : Instr → Bool
  | .tax | .txa | .tay | .tya | .tsx | .txs | .pha | .pla | .php | .plp | .aslA | .lsrA | .rolA | .rorA | .inx | .dex | .iny | .dey
  | .jsr _ | .rts | .rti | .clc | .sec | .cli | .sei | .cld | .sed | .clv | .nop | .brk => true
  | _ => false

/-- The plain instructions, one by one. -/
theorem isPlain_cases {i : Instr} (h : isPlain i = true) :
    i = .tax ∨ i = .txa ∨ i = .tay ∨ i = .tya ∨ i = .tsx ∨ i = .txs ∨ i = .pha ∨ i = .pla ∨ i = .php ∨ i = .plp ∨
      i = .aslA ∨ i = .lsrA ∨ i = .rolA ∨ i = .rorA ∨ i = .inx ∨ i = .dex ∨ i = .iny ∨ i = .dey ∨ i = .rts ∨ i =
      .rti ∨ i = .clc ∨ i = .sec ∨ i = .cli ∨ i = .sei ∨ i = .cld ∨ i = .sed ∨ i = .clv ∨ i = .nop ∨ i = .brk ∨ ∃ w,
      i = .jsr w := by
  cases i <;> first | exact false_class rfl h | simp

theorem exec_plain {i : Instr} (h : isPlain i = true) (s : State) : exec i s = impliedClass i.opcode (plainEffect i) s := by
  cases i <;> first | exact false_class rfl h | rfl

/-- What every instruction is, by class: the one case split over the constructors that claims about all of them need. -/
theorem exec_cases (i : Instr) (s : State) :
    (isReadClass i.mnemonic = true) ∨ (isStore i.mnemonic = true) ∨ (isModify i.mnemonic = true ∧ i.form ≠ .implied) ∨
      (isBranch i.mnemonic = true) ∨ (∃ w, i = .jmpAbs w) ∨ (∃ p, i = .jmpInd p) ∨
      (isPlain i = true ∧ exec i s = impliedClass i.opcode (plainEffect i) s) := by
  cases i <;> first
    | exact .inl rfl
    | exact .inr (.inl rfl)
    | exact .inr (.inr (.inr (.inl rfl)))
    | exact .inr (.inr (.inl ⟨rfl, Form.noConfusion⟩))
    | exact .inr (.inr (.inr (.inr (.inl ⟨_, rfl⟩))))
    | exact .inr (.inr (.inr (.inr (.inr (.inl ⟨_, rfl⟩)))))
    | exact .inr (.inr (.inr (.inr (.inr (.inr ⟨rfl, rfl⟩)))))

theorem exec_jmpAbs (w : Word) (s : State) :
    exec (.jmpAbs w) s = .next (((consumeWord w s).setPC w).tick (cycles 0x4C false false)) := rfl

theorem exec_jmpInd (p : Word) (s : State) :
    exec (.jmpInd p) s = .next (((resolve (.indirect p) s).state.setPC
      (word ((busRead p (consumeWord p s)).2.answer (word (hi8 p) (lo8 p + 1))) ((consumeWord p s).answer p))).tick
        (cycles 0x6C false false)) := rfl

/-- What a next state is, by class: the inversion every claim about all instructions starts from. -/
theorem exec_next {i : Instr} {s t : State} (h : exec i s = .next t) :
    (isReadClass i.mnemonic = true ∧ t = (readEffect i.mnemonic (operandByte i.form s) (afterOperand i.form s)).tick
      (cycles i.opcode false (resolve i.form s).crossed)) ∨
    (isStore i.mnemonic = true ∧ ∃ ea, (resolve i.form s).operand = .addr ea ∧
      t = (busWrite ea (storedByte i.mnemonic s) (resolve i.form s).state).tick (cycles i.opcode false (resolve i.form s).crossed)) ∨
    (isModify i.mnemonic = true ∧ i.form ≠ .implied ∧ ∃ ea, (resolve i.form s).operand = .addr ea ∧
      t = (busWrite ea (modifyByte i.mnemonic (operandByte i.form s) s.flags).r
        ((afterOperand i.form s).setFlags (modifyByte i.mnemonic (operandByte i.form s) s.flags).flags)).tick
          (cycles i.opcode false (resolve i.form s).crossed)) ∨
    (isBranch i.mnemonic = true ∧ ∃ d, i.form = .relative d ∧
      t = (if branchTaken i.mnemonic s.flags then (consume d s).setPC (s.pc + 1 + sext16 d) else consume d s).tick
        (cycles i.opcode (branchTaken i.mnemonic s.flags) (resolve (.relative d) s).crossed)) ∨
    (∃ w, i = .jmpAbs w ∧ t = ((consumeWord w s).setPC w).tick (cycles 0x4C false false)) ∨
    (∃ p, i = .jmpInd p ∧ t = ((resolve (.indirect p) s).state.setPC
      (word ((busRead p (consumeWord p s)).2.answer (word (hi8 p) (lo8 p + 1))) ((consumeWord p s).answer p))).tick
        (cycles 0x6C false false)) ∨
    (isPlain i = true ∧ t = (plainEffect i s).tick (cycles i.opcode false false)) := by
  rcases exec_cases i s with hr | hs | ⟨hm, hf⟩ | hb | ⟨w, rfl⟩ | ⟨p, rfl⟩ | ⟨hp, he⟩
  · refine .inl ⟨hr, ?_⟩
    by_cases hd : i.mnemonic = .adc ∨ i.mnemonic = .sbc
    · rw [exec_decimal hd, decimalClass] at h
      split at h
      · simp [raiseError, report] at h
      · rw [readClass_next (form_of_read hr)] at h
        exact (Host.Outcome.next.inj h).symm
    · rw [exec_read hr ⟨fun e => hd (.inl e), fun e => hd (.inr e)⟩, readClass_next (form_of_read hr)] at h
      exact (Host.Outcome.next.inj h).symm
  · obtain ⟨ea, he⟩ := resolve_addr (form_of_store hs) s
    rw [exec_store hs, storeClass_next he] at h
    exact .inr (.inl ⟨hs, ea, he, (Host.Outcome.next.inj h).symm⟩)
  · obtain ⟨ea, he⟩ := resolve_addr (form_of_modify hm hf) s
    rw [exec_modify hm hf, rmwClass_next he] at h
    exact .inr (.inr (.inl ⟨hm, hf, ea, he, (Host.Outcome.next.inj h).symm⟩))
  · obtain ⟨d, hd, he⟩ := exec_branch hb s
    rw [he, branchClass_next] at h
    exact .inr (.inr (.inr (.inl ⟨hb, d, hd, (Host.Outcome.next.inj h).symm⟩)))
  · rw [exec_jmpAbs] at h
    exact .inr (.inr (.inr (.inr (.inl ⟨w, rfl, (Host.Outcome.next.inj h).symm⟩))))
  · rw [exec_jmpInd] at h
    exact .inr (.inr (.inr (.inr (.inr (.inl ⟨p, rfl, (Host.Outcome.next.inj h).symm⟩)))))
  · rw [he] at h
    exact .inr (.inr (.inr (.inr (.inr (.inr ⟨hp, (Host.Outcome.next.inj h).symm⟩)))))

end Sys2Proof.Machine
end

