-- ==== Sys2Proof/Laws/Flags.lean ====
section
/-! SUPPORT. The flag computations in the terms claims use: bytes as numbers, the status byte and what it pulls back to. -/

namespace Sys2Proof.Machine

theorem setZN_eq (v : Byte) (f : Flags) : setZN v f = flagsOfResult v f := by
  simp only [setZN, flagsOfResult, beq_zero, getLsbD_seven]

theorem setZN_carry (v : Byte) (f : Flags) (b : Bool) :
    setZN v { f with c := b } = { flagsOfResult v f with c := b } := by
  rw [setZN_eq]; rfl

theorem bit_le_one (b : Bool) : bit b ≤ 1 := by cases b <;> decide

theorem byte_toInt (b : Byte) : b.toInt = if 128 ≤ b.toNat then (b.toNat : Int) - 256 else b.toNat := by
  rw [BitVec.toInt_eq_toNat_cond]
  have := b.isLt
  split <;> split <;> omega

theorem byte_not_toInt (b : Byte) : (~~~b).toInt = -b.toInt - 1 := by revert b; decide

theorem byte_not_toNat (b : Byte) : (~~~b).toNat = 255 - b.toNat := by simp

/-- The overflow bit of the adder (R181), in terms of the signs. -/
theorem overflow_bit_iff (a b r : Byte) : ((~~~(a ^^^ b) &&& (a ^^^ r) &&& 0x80) != 0) = true ↔
    decide (128 ≤ a.toNat) = decide (128 ≤ b.toNat) ∧ decide (128 ≤ r.toNat) ≠ decide (128 ≤ a.toNat) := by
  have h : ∀ x : Byte, ((x &&& 0x80) != 0) = x.getLsbD 7 := by decide
  rw [h]
  simp only [← getLsbD_seven, BitVec.getLsbD_and, BitVec.getLsbD_not, BitVec.getLsbD_xor]
  generalize a.getLsbD 7 = x, b.getLsbD 7 = y, r.getLsbD 7 = z
  revert x y z; decide

theorem pushedP_true (f : Flags) : pushedP f true = registerView f ||| 0x30 := by
  obtain ⟨n, v, d, i, z, c⟩ := f
  revert n v d i z c
  decide

theorem registerView_flagsOfByte (p : Byte) : registerView (flagsOfByte p) = (p &&& 0xCF) ||| 0x20 := by revert p; decide

end Sys2Proof.Machine
end

