-- ==== Sys2Proof/Laws/Interrupts.lean ====
section
/-! SUPPORT. The stack and interrupt entry: pushes and pulls one after another, and everything an interrupt sequence does. -/

namespace Sys2Proof.Machine

/-! ## Memory after several writes -/

theorem keepsMemoryBut_trans {l m : List Word} {s t u : State} (h : keepsMemoryBut l s t) (k : keepsMemoryBut m t u) :
    keepsMemoryBut (l ++ m) s u := by
  intro addr ha
  rw [List.mem_append, not_or] at ha
  rw [k addr ha.2, h addr ha.1]

/-- Only memory matters to what stays of it. -/
theorem keepsMemoryBut_of_mem {l : List Word} {s t s' t' : State} (h : keepsMemoryBut l s t) (hs : s'.mem = s.mem)
    (ht : t'.mem = t.mem) : keepsMemoryBut l s' t' := by
  intro addr ha
  have := h addr ha
  simpa [State.peek, hs, ht] using this

theorem keepsMemoryBut_push (v : Byte) (s : State) : keepsMemoryBut [stackAddr s.sp] s (push v s) := by
  intro addr ha
  exact push_peek_ne s v (by simpa using ha)

theorem keepsMemoryBut_busWrite (addr : Word) (v : Byte) (s : State) : keepsMemoryBut [addr] s (busWrite addr v s) := by
  intro b hb
  exact busWrite_peek_ne s v (by simpa using hb)

/-- A byte of RAM pushed is there to be read. -/
theorem peek_push (v : Byte) {s : State} (hw : Memory.wf s.mem = true) (hio : isIo s.cfg (stackAddr s.sp) = false) :
    (push v s).peek (stackAddr s.sp) = v := push_peek_eq s v hw hio

theorem peek_push_ne (v : Byte) {s : State} {addr : Word} (h : addr ≠ stackAddr s.sp) : (push v s).peek addr = s.peek addr :=
  push_peek_ne s v h

/-! ## Stack pointers -/

@[simp] theorem sp_pred_succ (b : Byte) : b - 1 + 1 = b := by bv_omega

theorem sp_pred_two (b : Byte) : b - 1 - 1 = b - 2 := by bv_omega

theorem sp_pred_three (b : Byte) : b - 1 - 1 - 1 = b - 3 := by bv_omega

theorem sp_succ_two (b : Byte) : b + 1 + 1 = b + 2 := by bv_omega

theorem sp_succ_three (b : Byte) : b + 1 + 1 + 1 = b + 3 := by bv_omega

/-- Different stack pointers name different addresses (R30). -/
theorem stackAddr_ne {p q : Byte} (h : p ≠ q) : stackAddr p ≠ stackAddr q := fun e => h (stackAddr_inj e)

/-- No address outside page 1 is a stack address, the vectors among them. -/
theorem ne_stackAddr {w : Word} (h : 512 ≤ w.toNat) (p : Byte) : w ≠ stackAddr p := by
  rintro rfl
  have := p.isLt
  rw [stackAddr_toNat] at h
  omega

/-! ## Pulling the status byte and an address -/

@[simp] theorem pullFlags_a (s : State) : (pullFlags s).a = s.a := rfl
@[simp] theorem pullFlags_x (s : State) : (pullFlags s).x = s.x := rfl
@[simp] theorem pullFlags_y (s : State) : (pullFlags s).y = s.y := rfl
@[simp] theorem pullFlags_fsm (s : State) : (pullFlags s).fsm = s.fsm := rfl
@[simp] theorem pullFlags_resetPending (s : State) : (pullFlags s).resetPending = s.resetPending := rfl
@[simp] theorem pullFlags_nmiPending (s : State) : (pullFlags s).nmiPending = s.nmiPending := rfl
@[simp] theorem pullFlags_irqLine (s : State) : (pullFlags s).irqLine = s.irqLine := rfl
@[simp] theorem pullFlags_mem (s : State) : (pullFlags s).mem = s.mem := rfl
@[simp] theorem pullFlags_cycles (s : State) : (pullFlags s).cycles = s.cycles := rfl
@[simp] theorem pullFlags_cfg (s : State) : (pullFlags s).cfg = s.cfg := rfl
@[simp] theorem pullFlags_pc (s : State) : (pullFlags s).pc = s.pc := rfl
@[simp] theorem pullFlags_sp (s : State) : (pullFlags s).sp = s.sp + 1 := rfl
@[simp] theorem pullFlags_flags (s : State) :
    (pullFlags s).flags = flagsOfByte (s.answer (stackAddr (s.sp + 1))) := rfl
@[simp] theorem pullFlags_trace (s : State) :
    (pullFlags s).trace = .read (stackAddr (s.sp + 1)) (s.answer (stackAddr (s.sp + 1))) :: s.trace := rfl

@[simp] theorem pullPC_a (k : Word) (s : State) : (pullPC k s).a = s.a := by simp [pullPC]
@[simp] theorem pullPC_x (k : Word) (s : State) : (pullPC k s).x = s.x := by simp [pullPC]
@[simp] theorem pullPC_y (k : Word) (s : State) : (pullPC k s).y = s.y := by simp [pullPC]
@[simp] theorem pullPC_fsm (k : Word) (s : State) : (pullPC k s).fsm = s.fsm := by simp [pullPC]
@[simp] theorem pullPC_resetPending (k : Word) (s : State) : (pullPC k s).resetPending = s.resetPending := by simp [pullPC]
@[simp] theorem pullPC_nmiPending (k : Word) (s : State) : (pullPC k s).nmiPending = s.nmiPending := by simp [pullPC]
@[simp] theorem pullPC_irqLine (k : Word) (s : State) : (pullPC k s).irqLine = s.irqLine := by simp [pullPC]
@[simp] theorem pullPC_mem (k : Word) (s : State) : (pullPC k s).mem = s.mem := by simp [pullPC]
@[simp] theorem pullPC_cycles (k : Word) (s : State) : (pullPC k s).cycles = s.cycles := by simp [pullPC]
@[simp] theorem pullPC_cfg (k : Word) (s : State) : (pullPC k s).cfg = s.cfg := by simp [pullPC]
@[simp] theorem pullPC_flags (k : Word) (s : State) : (pullPC k s).flags = s.flags := by simp [pullPC]
@[simp] theorem pullPC_sp (k : Word) (s : State) : (pullPC k s).sp = s.sp + 2 := by
  rw [← sp_succ_two]
  simp [pullPC]
theorem pullPC_pc (k : Word) (s : State) :
    (pullPC k s).pc = word ((pull s).2.answer (stackAddr (s.sp + 1 + 1))) (s.answer (stackAddr (s.sp + 1))) + k := by
  simp [pullPC]
theorem pullPC_trace (k : Word) (s : State) :
    (pullPC k s).trace = [.read (stackAddr (s.sp + 1 + 1)) ((pull s).2.answer (stackAddr (s.sp + 1 + 1))),
      .read (stackAddr (s.sp + 1)) (s.answer (stackAddr (s.sp + 1)))] ++ s.trace := by
  simp [pullPC]

/-! ## The interrupt sequence -/

/-- The state after an interrupt sequence's three pushes (R313). -/
def afterPushes (k : InterruptKind) (s : State) : State :=
  push (pushedP s.flags (breakBit k)) (push (lo8 s.pc) (push (hi8 s.pc) s))

variable (k : InterruptKind) (s : State)

@[simp] theorem interruptSequence_a : (interruptSequence k s).a = s.a := by simp [interruptSequence]
@[simp] theorem interruptSequence_x : (interruptSequence k s).x = s.x := by simp [interruptSequence]
@[simp] theorem interruptSequence_y : (interruptSequence k s).y = s.y := by simp [interruptSequence]
@[simp] theorem interruptSequence_sp : (interruptSequence k s).sp = s.sp - 3 := by
  rw [← sp_pred_three]
  simp [interruptSequence]
@[simp] theorem interruptSequence_flags : (interruptSequence k s).flags = { s.flags with i := true } := by
  simp [interruptSequence]
@[simp] theorem interruptSequence_fsm : (interruptSequence k s).fsm = .running := by simp [interruptSequence]
@[simp] theorem interruptSequence_resetPending : (interruptSequence k s).resetPending = s.resetPending := by
  simp [interruptSequence]
@[simp] theorem interruptSequence_nmiPending : (interruptSequence k s).nmiPending = s.nmiPending := by
  simp [interruptSequence]
@[simp] theorem interruptSequence_irqLine : (interruptSequence k s).irqLine = s.irqLine := by simp [interruptSequence]
@[simp] theorem interruptSequence_cycles : (interruptSequence k s).cycles = s.cycles := by simp [interruptSequence]
@[simp] theorem interruptSequence_cfg : (interruptSequence k s).cfg = s.cfg := by simp [interruptSequence]

theorem interruptSequence_mem : (interruptSequence k s).mem = (afterPushes k s).mem := by
  simp [interruptSequence, afterPushes]

/-- The vector's two bytes, as the bus answers them after the pushes. -/
theorem interruptSequence_pc :
    (interruptSequence k s).pc =
      word ((busRead (vectorOf k) (afterPushes k s)).2.answer (vectorOf k + 1)) ((afterPushes k s).answer (vectorOf k)) := rfl

theorem afterPushes_trace :
    (afterPushes k s).trace = [.write (stackAddr (s.sp - 2)) (pushedP s.flags (breakBit k)),
      .write (stackAddr (s.sp - 1)) (lo8 s.pc), .write (stackAddr s.sp) (hi8 s.pc)] ++ s.trace := by
  rw [← sp_pred_two]
  simp [afterPushes]

theorem interruptSequence_trace :
    (interruptSequence k s).trace =
      [.read (vectorOf k + 1) ((busRead (vectorOf k) (afterPushes k s)).2.answer (vectorOf k + 1)),
       .read (vectorOf k) ((afterPushes k s).answer (vectorOf k)),
       .write (stackAddr (s.sp - 2)) (pushedP s.flags (breakBit k)), .write (stackAddr (s.sp - 1)) (lo8 s.pc),
       .write (stackAddr s.sp) (hi8 s.pc)] ++ s.trace := by
  have h : (interruptSequence k s).trace =
      [.read (vectorOf k + 1) ((busRead (vectorOf k) (afterPushes k s)).2.answer (vectorOf k + 1)),
       .read (vectorOf k) ((afterPushes k s).answer (vectorOf k))] ++ (afterPushes k s).trace := rfl
  rw [h, afterPushes_trace]
  rfl

/-- The three stack bytes and no other (R313, R316). -/
theorem keepsMemoryBut_afterPushes :
    keepsMemoryBut [stackAddr s.sp, stackAddr (s.sp - 1), stackAddr (s.sp - 2)] s (afterPushes k s) := by
  have h1 := keepsMemoryBut_push (hi8 s.pc) s
  have h2 := keepsMemoryBut_push (lo8 s.pc) (push (hi8 s.pc) s)
  have h3 := keepsMemoryBut_push (pushedP s.flags (breakBit k)) (push (lo8 s.pc) (push (hi8 s.pc) s))
  rw [push_sp] at h2
  rw [push_sp, push_sp, sp_pred_two] at h3
  exact keepsMemoryBut_trans (keepsMemoryBut_trans h1 h2) h3

theorem keepsMemoryBut_interruptSequence :
    keepsMemoryBut [stackAddr s.sp, stackAddr (s.sp - 1), stackAddr (s.sp - 2)] s (interruptSequence k s) := by
  intro addr ha
  rw [State.peek, interruptSequence_mem]
  exact keepsMemoryBut_afterPushes k s addr ha

/-- The vectors lie outside the stack page, so the pushes leave them alone (R60). -/
theorem afterPushes_peek_vector {w : Word} (h : 512 ≤ w.toNat) : (afterPushes k s).peek w = s.peek w :=
  keepsMemoryBut_afterPushes k s w (by simp [ne_stackAddr h])

end Sys2Proof.Machine
end

