-- ==== Sys2Proof/Laws/Moves.lean ====
section
/-! SUPPORT. What any step can do, said once: a chain of moves, each a change of registers and inputs that leaves the bus side alone,
a bus read, or a bus write. Every invariant of the bus side is an induction over `Moves`. -/

namespace Sys2Proof.Machine

/-- A change that leaves memory, the history and the configuration alone, and does not turn the counter back. -/
def SameBus (s t : State) : Prop := t.mem = s.mem ∧ t.trace = s.trace ∧ t.cfg = s.cfg ∧ s.cycles ≤ t.cycles ∧ t.irqLine = s.irqLine

/-- A chain of moves from one state to another. -/
inductive Moves : State → State → Prop where
  | same {s t : State} (h : SameBus s t) : Moves s t
  | read (s : State) (addr : Word) : Moves s (busRead addr s).2
  | write (s : State) (addr : Word) (v : Byte) : Moves s (busWrite addr v s)
  | trans {s t u : State} (h : Moves s t) (k : Moves t u) : Moves s u

namespace Moves

theorem refl (s : State) : Moves s s := .same ⟨rfl, rfl, rfl, Nat.le_refl _, rfl⟩

/-- A change of registers and inputs at the end of a chain. -/
theorem andThen {s t u : State} (h : Moves s t) (hm : u.mem = t.mem) (ht : u.trace = t.trace) (hc : u.cfg = t.cfg)
    (hn : t.cycles ≤ u.cycles) (hi : u.irqLine = t.irqLine) : Moves s u :=
  .trans h (.same ⟨hm, ht, hc, hn, hi⟩)

/-- No chain writes the configuration or the IRQ line, or turns the counter back, and history only grows. -/
theorem keeps {s t : State} (h : Moves s t) :
    t.cfg = s.cfg ∧ t.irqLine = s.irqLine ∧ s.cycles ≤ t.cycles ∧ ∃ es, t.trace = es ++ s.trace := by
  induction h with
  | same h => exact ⟨h.2.2.1, h.2.2.2.2, h.2.2.2.1, [], h.2.1⟩
  | read s addr => exact ⟨rfl, rfl, Nat.le_refl _, [_], rfl⟩
  | write s addr v => exact ⟨by simp, by simp, by simp, [_], by simp; rfl⟩
  | trans _ _ ih ik =>
    obtain ⟨c, q, n, es, e⟩ := ih
    obtain ⟨c', q', n', es', e'⟩ := ik
    exact ⟨c'.trans c, q'.trans q, Nat.le_trans n n', es' ++ es, by rw [e', e, List.append_assoc]⟩

end Moves

/-- The one byte a fetch consumes is a bus read when it is what the bus answers. -/
theorem moves_consume (s : State) : Moves s (consume (s.answer s.pc) s) :=
  (Moves.read s s.pc).andThen rfl rfl rfl (Nat.le_refl _) rfl

theorem moves_push (v : Byte) (s : State) : Moves s (push v s) :=
  (Moves.write s (stackAddr s.sp) v).andThen rfl rfl rfl (by simp) (by simp)

theorem moves_pull (s : State) : Moves s (pull s).2 :=
  .trans (.same (t := s.setSP (s.sp + 1)) ⟨rfl, rfl, rfl, Nat.le_refl _, rfl⟩) (.read _ _)

theorem moves_loadVector (vec : Word) (s : State) : Moves s (loadVector vec s) :=
  ((Moves.read s vec).trans (.read _ (vec + 1))).andThen rfl rfl rfl (Nat.le_refl _) rfl

theorem moves_interrupt (k : InterruptKind) (s : State) : Moves s (interruptSequence k s) := by
  have h := (moves_push (hi8 s.pc) s).trans (moves_push (lo8 s.pc) _)
  have h := h.trans (moves_push (pushedP s.flags (breakBit k)) _)
  have h := h.andThen (u := State.setFlags _ { s.flags with i := true }) rfl rfl rfl (Nat.le_refl _) rfl
  exact (h.trans (moves_loadVector (vectorOf k) _)).andThen rfl rfl rfl (Nat.le_refl _) rfl

theorem moves_pullFlags (s : State) : Moves s (pullFlags s) :=
  (moves_pull s).andThen rfl rfl rfl (Nat.le_refl _) rfl

theorem moves_pullPC (k : Word) (s : State) : Moves s (pullPC k s) :=
  ((moves_pull s).trans (moves_pull _)).andThen rfl rfl rfl (Nat.le_refl _) rfl

theorem moves_reset (s : State) : Moves s (resetSequence s) := by
  have h : Moves s (((((((s.setA 0x00).setX 0x00).setY 0x00).setSP 0xFD).setFlags resetFlags).setResetPending
      false).setNmiPending false) := .same ⟨rfl, rfl, rfl, Nat.le_refl _, rfl⟩
  exact (h.trans (moves_loadVector resetVector _)).andThen rfl rfl rfl (Nat.le_add_right _ _) rfl

theorem moves_alias (p : AliasProgram) (s : State) : Moves s (runAlias p s) := by
  induction p generalizing s with
  | read addr cont ih => exact (Moves.read s addr).trans (ih _ _)
  | write addr v cont ih => exact (Moves.write s addr v).trans (ih _)
  | done r n => exact .same ⟨rfl, rfl, rfl, Nat.le_add_right _ _, rfl⟩

/-- Resolving an operand is a chain of reads, when the operand bytes are what the bus answers. -/
def fetched (f : Form) (s : State) : Prop :=
  match f with
  | .implied => True
  | .immediate b | .zeroPage b | .zeroPageX b | .zeroPageY b | .relative b | .indirectX b | .indirectY b => b = s.answer s.pc
  | .absolute w | .absoluteX w | .absoluteY w | .indirect w =>
    lo8 w = s.answer s.pc ∧ hi8 w = (consume (lo8 w) s).answer (s.pc + 1)

theorem moves_consumeByte {b : Byte} {s : State} (h : b = s.answer s.pc) : Moves s (consume b s) := h ▸ moves_consume s

theorem moves_consumeWord {w : Word} {s : State}
    (h : lo8 w = s.answer s.pc ∧ hi8 w = (consume (lo8 w) s).answer (s.pc + 1)) : Moves s (consumeWord w s) :=
  (moves_consumeByte h.1).trans (moves_consumeByte h.2)

theorem moves_readPointer (p q : Word) (s : State) : Moves s (readPointer p q s).2 := (Moves.read s p).trans (.read _ q)

theorem moves_resolve {f : Form} {s : State} (h : fetched f s) : Moves s (resolve f s).state := by
  cases f with
  | implied => exact .refl s
  | immediate => exact moves_consumeByte h
  | zeroPage => exact moves_consumeByte h
  | zeroPageX => exact moves_consumeByte h
  | zeroPageY => exact moves_consumeByte h
  | relative => exact moves_consumeByte h
  | absolute => exact moves_consumeWord h
  | absoluteX => exact moves_consumeWord h
  | absoluteY => exact moves_consumeWord h
  | indirect => exact (moves_consumeWord h).trans (moves_readPointer _ _ _)
  | indirectX => exact (moves_consumeByte h).trans (moves_readPointer _ _ _)
  | indirectY => exact (moves_consumeByte h).trans (moves_readPointer _ _ _)

theorem moves_afterOperand {f : Form} {s : State} (h : fetched f s) : Moves s (afterOperand f s) := by
  unfold afterOperand
  split
  · exact (moves_resolve h).trans (.read _ _)
  · exact moves_resolve h

/-- The effect of a read-class instruction is on registers and flags alone. -/
theorem readEffect_sameBus (mn : Mnemonic) (m : Byte) (s : State) : SameBus s (readEffect mn m s) := by
  cases mn <;> exact ⟨rfl, rfl, rfl, Nat.le_refl _, rfl⟩

theorem moves_plain {i : Instr} {s : State} (h : fetched i.form s) : Moves s (plainEffect i s) := by
  cases i
  case pha => exact moves_push _ _
  case php => exact moves_push _ _
  case pla => exact (moves_pull s).andThen rfl rfl rfl (Nat.le_refl _) rfl
  case plp => exact moves_pullFlags s
  case jsr w =>
    exact (((moves_consumeWord h).trans (moves_push _ _)).trans (moves_push _ _)).andThen rfl rfl rfl (Nat.le_refl _) rfl
  case rts => exact moves_pullPC 1 s
  case rti => exact (moves_pullFlags s).trans (moves_pullPC 0 _)
  case brk => exact .trans (.same (t := s.setPC (s.pc + 1)) ⟨rfl, rfl, rfl, Nat.le_refl _, rfl⟩) (moves_interrupt .brk _)
  all_goals exact .same ⟨rfl, rfl, rfl, Nat.le_refl _, rfl⟩

theorem moves_raise (e : StepError) (s : State) : ∀ t, resultState (raiseError e s) = some t → Moves s t := by
  intro t h
  cases e <;>
    (obtain rfl : _ = t := Option.some.inj h
     exact .same ⟨rfl, rfl, rfl, Nat.le_add_right _ _, rfl⟩)

/-- What an instruction can do: whatever it answers, it got there by moves, when its operand bytes are what the bus answers. -/
theorem exec_moves {i : Instr} {s : State} (h : fetched i.form s) : ∀ t, resultState (exec i s) = some t → Moves s t := by
  intro t ht
  rcases exec_cases i s with hr | hs | ⟨hm, hf⟩ | hb | ⟨w, rfl⟩ | ⟨p, rfl⟩ | ⟨-, he⟩
  · by_cases hd : i.mnemonic = .adc ∨ i.mnemonic = .sbc
    · rw [exec_decimal hd, decimalClass] at ht
      split at ht
      · exact moves_raise _ _ t ht
      · rw [readClass_next (form_of_read hr)] at ht
        obtain rfl := Option.some.inj ht
        exact ((moves_afterOperand h).trans (.same (readEffect_sameBus _ _ _))).andThen rfl rfl rfl (Nat.le_add_right _ _) rfl
    · rw [exec_read hr ⟨fun e => hd (.inl e), fun e => hd (.inr e)⟩, readClass_next (form_of_read hr)] at ht
      obtain rfl := Option.some.inj ht
      exact ((moves_afterOperand h).trans (.same (readEffect_sameBus _ _ _))).andThen rfl rfl rfl (Nat.le_add_right _ _) rfl
  · obtain ⟨ea, he⟩ := resolve_addr (form_of_store hs) s
    rw [exec_store hs, storeClass_next he] at ht
    obtain rfl := Option.some.inj ht
    exact ((moves_resolve h).trans (.write _ _ _)).andThen rfl rfl rfl (Nat.le_add_right _ _) rfl
  · obtain ⟨ea, he⟩ := resolve_addr (form_of_modify hm hf) s
    rw [exec_modify hm hf, rmwClass_next he] at ht
    obtain rfl := Option.some.inj ht
    have k := (moves_afterOperand h).andThen (u := State.setFlags _ (modifyByte i.mnemonic (operandByte i.form s) s.flags).flags)
      rfl rfl rfl (Nat.le_refl _) rfl
    exact (k.trans (.write _ _ _)).andThen rfl rfl rfl (Nat.le_add_right _ _) rfl
  · obtain ⟨d, hd, he⟩ := exec_branch hb s
    rw [he, branchClass_next] at ht
    obtain rfl := Option.some.inj ht
    have k : Moves s (consume d s) := moves_consumeByte (by rw [hd] at h; exact h)
    cases branchTaken i.mnemonic s.flags
    · exact k.andThen rfl rfl rfl (Nat.le_add_right _ _) rfl
    · exact k.andThen rfl rfl rfl (Nat.le_add_right _ _) rfl
  · obtain rfl := Option.some.inj ht
    exact (moves_consumeWord h).andThen rfl rfl rfl (Nat.le_add_right _ _) rfl
  · obtain rfl := Option.some.inj ht
    exact (moves_resolve (f := .indirect p) h).andThen rfl rfl rfl (Nat.le_add_right _ _) rfl
  · rw [he] at ht
    obtain rfl := Option.some.inj ht
    exact (moves_plain h).andThen rfl rfl rfl (Nat.le_add_right _ _) rfl

end Sys2Proof.Machine
end

