-- ==== Sys2Proof/Laws/Step.lean ====
section
/-! SUPPORT. One Step: the cases of it, and what any of them can do. -/

namespace Sys2Proof.Machine

/-- A Dispatch Entry builds an instruction whose operand is the bytes after the opcode. -/
def buildsForm : Build → Prop
  | .plain i => i.form = .implied
  | .byte f => ∀ s : State, fetched (f (s.answer s.pc)).form s
  | .word f => ∀ (s : State) (lo hi : Byte), lo = s.answer s.pc → hi = (consume lo s).answer (s.pc + 1) →
      fetched (f (word hi lo)).form s

theorem dispatchTable_builds : ∀ r ∈ dispatchTable, buildsForm r.build := by
  have word_ok : ∀ (s : State) (lo hi : Byte), lo = s.answer s.pc → hi = (consume lo s).answer (s.pc + 1) →
      lo8 (word hi lo) = s.answer s.pc ∧ hi8 (word hi lo) = (consume (lo8 (word hi lo)) s).answer (s.pc + 1) :=
    fun s lo hi h k => ⟨(lo8_word hi lo).trans h, by rw [hi8_word, lo8_word]; exact k⟩
  simp only [dispatchTable, List.mem_append, or_imp, forall_and]
  refine ⟨⟨⟨⟨⟨⟨⟨⟨⟨⟨⟨⟨⟨⟨⟨?_, ?_⟩, ?_⟩, ?_⟩, ?_⟩, ?_⟩, ?_⟩, ?_⟩, ?_⟩, ?_⟩, ?_⟩, ?_⟩, ?_⟩, ?_⟩, ?_⟩, ?_⟩
  all_goals
    repeat' first
      | exact List.forall_mem_nil _
      | refine List.forall_mem_cons.2 ⟨?_, ?_⟩
      | exact rfl
      | exact fun s => (rfl : s.answer s.pc = s.answer s.pc)
      | exact fun s lo hi h k => word_ok s lo hi h k

theorem lookup_mem {op : Byte} {r : Row} (h : lookup op = some r) : r ∈ dispatchTable := List.mem_of_find?_eq_some h

/-- The instruction a Step decodes carries, as its operand, the bytes the bus answers after the opcode fetch. -/
theorem fetched_of_decode {s : State} {i : Instr} {rest : List Byte} (h : decode (fetchBytes s) = .ok (i, rest)) :
    fetched i.form (afterOpcode s) := by
  simp only [decode, fetchBytes] at h
  split at h
  · simp at h
  · rename_i row hrow
    have hb := dispatchTable_builds row (lookup_mem hrow)
    cases hbuild : row.build with
    | plain j =>
      rw [hbuild] at h hb
      simp only [Build.take, Except.ok.injEq, Prod.mk.injEq] at h
      obtain ⟨rfl, -⟩ := h
      rw [show j.form = .implied from hb]
      trivial
    | byte f =>
      rw [hbuild] at h hb
      simp only [Build.take, Except.ok.injEq, Prod.mk.injEq] at h
      obtain ⟨rfl, -⟩ := h
      exact hb (afterOpcode s)
    | word f =>
      rw [hbuild] at h hb
      simp only [Build.take, Except.ok.injEq, Prod.mk.injEq] at h
      obtain ⟨rfl, -⟩ := h
      exact hb (afterOpcode s) _ _ rfl rfl

/-- Three bytes are never too few. -/
theorem decode_fetchBytes_ne_truncated (s : State) : decode (fetchBytes s) ≠ .error .truncated := by
  simp only [decode, fetchBytes]
  split
  · simp
  · rename_i row _
    cases row.build <;> simp [Build.take]

/-- The only error of a fetch is an undefined opcode, the byte at PC. -/
theorem decode_fetchBytes_error {s : State} {e : DecodeError} (h : decode (fetchBytes s) = .error e) :
    e = .undefinedOpcode (s.answer s.pc) ∧ lookup (s.answer s.pc) = none := by
  simp only [decode, fetchBytes] at h
  split at h
  · rename_i hn
    exact ⟨by simpa using h.symm, hn⟩
  · rename_i row _
    cases hb : row.build <;> simp [hb, Build.take] at h

theorem moves_afterOpcode (s : State) : Moves s (afterOpcode s) := moves_consume s

/-- A Step in `Running` that executes (R82). -/
theorem step_executes {s : State} (h : s.executes) : step s = stepInstr s := by
  obtain ⟨hf, hr, hn, hi⟩ := h
  simp only [step, hf, stepRunning, hr, hn]
  rcases hi with hi | hi <;> simp [hi]

/-- What a Step can be, said once (R82). -/
theorem step_cases (s : State) :
    (s.resetPending = true ∧ step s = .next (resetSequence s)) ∨
    (∃ e, s.fsm = .faulted e ∧ s.resetPending = false ∧ step s = report e s) ∨
    (s.fsm = .running ∧ s.resetPending = false ∧ s.nmiPending = true ∧
      step s = .next ((interruptSequence .nmi (s.setNmiPending false)).tick sequenceTicks)) ∨
    (s.fsm = .running ∧ s.resetPending = false ∧ s.nmiPending = false ∧ s.irqLine = true ∧ s.flags.i = false ∧
      step s = .next ((interruptSequence .irq s).tick sequenceTicks)) ∨
    (s.executes ∧ ∃ i rest, decode (fetchBytes s) = .ok (i, rest) ∧ step s = exec i (afterOpcode s)) ∨
    (s.executes ∧ ∃ op, decode (fetchBytes s) = .error (.undefinedOpcode op) ∧
      step s = undefinedOpcode op s.pc (afterOpcode s)) := by
  by_cases hr : s.resetPending = true
  · refine .inl ⟨hr, ?_⟩
    unfold step
    split <;> simp [stepRunning, stepFaulted, hr]
  have hr' : s.resetPending = false := by simpa using hr
  refine .inr ?_
  cases hf : s.fsm with
  | faulted e => exact .inl ⟨e, rfl, hr', by simp [step, hf, stepFaulted, hr']⟩
  | running =>
    refine .inr ?_
    by_cases hn : s.nmiPending = true
    · exact .inl ⟨rfl, hr', hn, by simp [step, hf, stepRunning, hr', hn]⟩
    have hn' : s.nmiPending = false := by simpa using hn
    refine .inr ?_
    by_cases hi : s.irqLine = true ∧ s.flags.i = false
    · exact .inl ⟨rfl, hr', hn', hi.1, hi.2, by simp [step, hf, stepRunning, hr', hn', hi.1, hi.2]⟩
    have he : s.executes := ⟨hf, hr', hn', by
      cases h1 : s.irqLine <;> cases h2 : s.flags.i <;> simp_all⟩
    refine .inr ?_
    cases hd : decode (fetchBytes s) with
    | ok q => exact .inl ⟨he, q.1, q.2, rfl, by simp [step_executes he, stepInstr, hd]⟩
    | error e =>
      obtain ⟨rfl, -⟩ := decode_fetchBytes_error hd
      exact .inr ⟨he, _, rfl, by simp [step_executes he, stepInstr, hd]⟩

/-- Whatever a Step answers, it got there by moves. -/
theorem step_moves (s : State) : ∀ t, resultState (step s) = some t → Moves s t := by
  intro t ht
  rcases step_cases s with ⟨-, h⟩ | ⟨e, -, -, h⟩ | ⟨-, -, -, h⟩ | ⟨-, -, -, -, -, h⟩ | ⟨-, i, rest, hd, h⟩ | ⟨-, op, hd, h⟩
  · rw [h] at ht
    obtain rfl := Option.some.inj ht
    exact moves_reset s
  · rw [h] at ht
    cases e <;>
      (obtain rfl := Option.some.inj ht
       exact .refl s)
  · rw [h] at ht
    obtain rfl := Option.some.inj ht
    have k : Moves s (s.setNmiPending false) := .same ⟨rfl, rfl, rfl, Nat.le_refl _, rfl⟩
    exact (k.trans (moves_interrupt .nmi (s.setNmiPending false))).andThen (u := State.tick _ sequenceTicks)
      rfl rfl rfl (Nat.le_add_right _ _) rfl
  · rw [h] at ht
    obtain rfl := Option.some.inj ht
    exact (moves_interrupt .irq s).andThen (u := State.tick _ sequenceTicks) rfl rfl rfl (Nat.le_add_right _ _) rfl
  · rw [h] at ht
    exact (moves_afterOpcode s).trans (exec_moves (fetched_of_decode hd) t ht)
  · rw [h] at ht
    unfold undefinedOpcode at ht
    split at ht
    · refine (moves_afterOpcode s).trans ?_
      unfold runBehaviour at ht
      split at ht
      · exact moves_raise _ _ t ht
      · obtain rfl := Option.some.inj ht
        exact moves_alias _ _
    · exact (moves_afterOpcode s).trans (moves_raise _ _ t ht)

end Sys2Proof.Machine
end

