-- ==== Sys2Proof/Laws/Ticks.lean ====
section
/-! SUPPORT. The counter is an output: each operation commutes with `State.tick`, one lemma for each. -/

namespace Sys2Proof.Machine

variable (s : State) (n : Nat)

theorem tick_tick_comm (m : Nat) : (s.tick n).tick m = (s.tick m).tick n := by
  apply State.ext <;> simp
  omega

theorem tick_setSP (v : Byte) : (s.tick n).setSP v = (s.setSP v).tick n := rfl
theorem tick_setPC (w : Word) : (s.tick n).setPC w = (s.setPC w).tick n := rfl
theorem tick_setFlags (f : Flags) : (s.tick n).setFlags f = (s.setFlags f).tick n := rfl
theorem tick_setFsm (q : Fsm) : (s.tick n).setFsm q = (s.setFsm q).tick n := rfl
theorem tick_setNmiPending (b : Bool) : (s.tick n).setNmiPending b = (s.setNmiPending b).tick n := rfl
theorem tick_setRegisters (r : Registers) : (s.tick n).setRegisters r = (s.setRegisters r).tick n := rfl

theorem busWrite_tick (addr : Word) (v : Byte) : busWrite addr v (s.tick n) = (busWrite addr v s).tick n := by
  apply State.ext <;> simp
  rfl

theorem push_tick (v : Byte) : push v (s.tick n) = (push v s).tick n := by
  simp only [push, State.tick_sp, busWrite_tick]
  rfl

theorem pull_tick : pull (s.tick n) = ((pull s).1, (pull s).2.tick n) := rfl
theorem loadVector_tick (w : Word) : loadVector w (s.tick n) = (loadVector w s).tick n := rfl
theorem consumeWord_tick (w : Word) : consumeWord w (s.tick n) = (consumeWord w s).tick n := rfl
theorem fetchBytes_tick : fetchBytes (s.tick n) = fetchBytes s := rfl
theorem afterOpcode_tick : afterOpcode (s.tick n) = (afterOpcode s).tick n := rfl
theorem loadA_tick (v : Byte) : loadA v (s.tick n) = (loadA v s).tick n := rfl
theorem loadX_tick (v : Byte) : loadX v (s.tick n) = (loadX v s).tick n := rfl
theorem loadY_tick (v : Byte) : loadY v (s.tick n) = (loadY v s).tick n := rfl
theorem modifyA_tick (f : Byte → Flags → Modified) : modifyA f (s.tick n) = (modifyA f s).tick n := rfl

theorem pullPC_tick (k : Word) : pullPC k (s.tick n) = (pullPC k s).tick n := by
  simp only [pullPC, pull_tick]
  rfl

theorem pullFlags_tick : pullFlags (s.tick n) = (pullFlags s).tick n := by
  simp only [pullFlags, pull_tick]
  rfl

theorem pullA_tick : pullA (s.tick n) = (pullA s).tick n := by
  simp only [pullA, pull_tick]
  rfl

theorem callSubroutine_tick (w : Word) : callSubroutine w (s.tick n) = (callSubroutine w s).tick n := by
  simp only [callSubroutine, consumeWord_tick, push_tick, State.tick_pc]
  rfl

theorem interruptSequence_tick (k : InterruptKind) : interruptSequence k (s.tick n) = (interruptSequence k s).tick n := by
  simp only [interruptSequence, push_tick, State.tick_pc, State.tick_flags, tick_setFlags, loadVector_tick, tick_setFsm]

theorem softwareInterrupt_tick : softwareInterrupt (s.tick n) = (softwareInterrupt s).tick n :=
  interruptSequence_tick (s.setPC (s.pc + 1)) n .brk

theorem resetSequence_tick : resetSequence (s.tick n) = (resetSequence s).tick n := by
  have h : ∀ t : State, resetSequence t = ((loadVector resetVector (((((((t.setA 0x00).setX 0x00).setY 0x00).setSP 0xFD).setFlags
      resetFlags).setResetPending false).setNmiPending false)).setFsm .running).tick sequenceTicks := fun _ => rfl
  rw [h, h, tick_tick_comm _ sequenceTicks n]
  rfl

theorem raiseError_tick (e : StepError) : raiseError e (s.tick n) = Result.later n (raiseError e s) := by
  have h : failed e (s.tick n) = (failed e s).tick n := by
    unfold failed
    rw [tick_tick_comm]
    rfl
  cases e <;> simp [raiseError, report, Result.later, h]

/-! ## Operands and effects -/

theorem resolve_tick (f : Form) : resolve f (s.tick n) =
    ⟨(resolve f s).operand, (resolve f s).crossed, (resolve f s).state.tick n⟩ := by
  cases f <;> rfl

theorem afterOperand_tick (f : Form) : afterOperand f (s.tick n) = (afterOperand f s).tick n := by
  cases f <;> rfl

theorem operandByte_tick (f : Form) : operandByte f (s.tick n) = operandByte f s := by
  cases f <;> rfl

theorem storedByte_tick (mn : Mnemonic) : storedByte mn (s.tick n) = storedByte mn s := by
  cases mn <;> rfl

theorem readEffect_tick (mn : Mnemonic) (m : Byte) : readEffect mn m (s.tick n) = (readEffect mn m s).tick n := by
  cases mn <;> rfl

theorem plainEffect_tick (i : Instr) (hp : isPlain i = true) : plainEffect i (s.tick n) = (plainEffect i s).tick n := by
  rcases isPlain_cases hp with rfl | rfl | rfl | rfl | rfl | rfl | rfl | rfl | rfl | rfl | rfl | rfl | rfl | rfl | rfl | rfl | rfl |
    rfl | rfl | rfl | rfl | rfl | rfl | rfl | rfl | rfl | rfl | rfl | rfl | ⟨w, rfl⟩ <;>
  simp only [plainEffect_tax, plainEffect_txa, plainEffect_tay, plainEffect_tya, plainEffect_tsx, plainEffect_txs, plainEffect_pha,
    plainEffect_pla, plainEffect_php, plainEffect_plp, plainEffect_aslA, plainEffect_lsrA, plainEffect_rolA, plainEffect_rorA,
    plainEffect_inx, plainEffect_dex, plainEffect_iny, plainEffect_dey, plainEffect_jsr, plainEffect_rts, plainEffect_rti,
    plainEffect_clc, plainEffect_sec, plainEffect_cli, plainEffect_sei, plainEffect_cld, plainEffect_sed, plainEffect_clv,
    plainEffect_brk, plainEffect_nop, returnFromInterrupt, State.tick_a, State.tick_x, State.tick_y, State.tick_sp,
    State.tick_flags, loadA_tick, loadX_tick, loadY_tick, modifyA_tick, tick_setFlags, tick_setSP, push_tick, pullPC_tick,
    pullFlags_tick, pullA_tick, callSubroutine_tick, softwareInterrupt_tick]

theorem runAlias_tick (p : AliasProgram) : runAlias p (s.tick n) = (runAlias p s).tick n := by
  induction p generalizing s with
  | read addr cont ih => exact ih (s.answer addr) (busRead addr s).2
  | write addr v cont ih =>
    simp only [runAlias, busWrite_tick]
    exact ih _
  | done r m => simp only [runAlias, tick_setRegisters, tick_tick_comm _ n m]

theorem runBehaviour_tick (b : AliasBehaviour) : runBehaviour b (s.tick n) = Result.later n (runBehaviour b s) := by
  have h : decimalRefused (s.tick n) = decimalRefused s := rfl
  have k : (s.tick n).registers = s.registers := rfl
  unfold runBehaviour
  rw [h, k, raiseError_tick, runAlias_tick]
  split <;> rfl

end Sys2Proof.Machine
end

