-- ==== Sys2Proof/Machine/Assembler.lean ====
section
/-! DEFINITION. The assembler syntax the spec writes its instructions in (spec/30_encoding.md R85): the text of an instruction, and the
displacement of a branch that names its target. No rule of the executor reads it. -/

namespace Sys2Proof.Machine

/-- A hexadecimal digit. -/
def hexDigit (n : Nat) : Char := if n < 10 then Char.ofNat (48 + n) else Char.ofNat (55 + n)

/-- A byte as two hexadecimal digits. -/
def hexByte (b : Byte) : List Char := [hexDigit (b.toNat / 16), hexDigit (b.toNat % 16)]

/-- A zero-page address or an immediate value: `$nn`. -/
def textByte (b : Byte) : List Char := '$' :: hexByte b

/-- A 16-bit address: `$nnnn`. -/
def textWord (w : Word) : List Char := '$' :: hexByte (hi8 w) ++ hexByte (lo8 w)

/-- A signed displacement: `+d` or `-d`, in decimal. -/
def textDisplacement (d : Byte) : List Char :=
  (if d.toInt < 0 then '-' else '+') :: Nat.toDigits 10 d.toInt.natAbs

/-- The mnemonic (R70). -/
def textMnemonic : Mnemonic → List Char
  | .lda => ['L', 'D', 'A'] | .ldx => ['L', 'D', 'X'] | .ldy => ['L', 'D', 'Y']
  | .sta => ['S', 'T', 'A'] | .stx => ['S', 'T', 'X'] | .sty => ['S', 'T', 'Y']
  | .tax => ['T', 'A', 'X'] | .txa => ['T', 'X', 'A'] | .tay => ['T', 'A', 'Y']
  | .tya => ['T', 'Y', 'A'] | .tsx => ['T', 'S', 'X'] | .txs => ['T', 'X', 'S']
  | .pha => ['P', 'H', 'A'] | .pla => ['P', 'L', 'A'] | .php => ['P', 'H', 'P'] | .plp => ['P', 'L', 'P']
  | .adc => ['A', 'D', 'C'] | .sbc => ['S', 'B', 'C']
  | .and => ['A', 'N', 'D'] | .ora => ['O', 'R', 'A'] | .eor => ['E', 'O', 'R'] | .bit => ['B', 'I', 'T']
  | .asl => ['A', 'S', 'L'] | .lsr => ['L', 'S', 'R'] | .rol => ['R', 'O', 'L'] | .ror => ['R', 'O', 'R']
  | .inc => ['I', 'N', 'C'] | .dec => ['D', 'E', 'C'] | .inx => ['I', 'N', 'X'] | .dex => ['D', 'E', 'X']
  | .iny => ['I', 'N', 'Y'] | .dey => ['D', 'E', 'Y']
  | .cmp => ['C', 'M', 'P'] | .cpx => ['C', 'P', 'X'] | .cpy => ['C', 'P', 'Y']
  | .bcc => ['B', 'C', 'C'] | .bcs => ['B', 'C', 'S'] | .beq => ['B', 'E', 'Q'] | .bne => ['B', 'N', 'E']
  | .bpl => ['B', 'P', 'L'] | .bmi => ['B', 'M', 'I'] | .bvc => ['B', 'V', 'C'] | .bvs => ['B', 'V', 'S']
  | .jmp => ['J', 'M', 'P'] | .jsr => ['J', 'S', 'R'] | .rts => ['R', 'T', 'S'] | .rti => ['R', 'T', 'I']
  | .clc => ['C', 'L', 'C'] | .sec => ['S', 'E', 'C'] | .cli => ['C', 'L', 'I'] | .sei => ['S', 'E', 'I']
  | .cld => ['C', 'L', 'D'] | .sed => ['S', 'E', 'D'] | .clv => ['C', 'L', 'V']
  | .nop => ['N', 'O', 'P'] | .brk => ['B', 'R', 'K']

/-- Whether an Implied form is written `OP A`: the accumulator forms (R73, R85). -/
def namesAccumulator (mn : Mnemonic) : Bool := mn == .asl || mn == .lsr || mn == .rol || mn == .ror

/-- The operand of an instruction. -/
def textOperand (mn : Mnemonic) : Form → List Char
  | .implied => if namesAccumulator mn then [' ', 'A'] else []
  | .immediate v => [' ', '#'] ++ textByte v
  | .zeroPage b => ' ' :: textByte b
  | .zeroPageX b => ' ' :: textByte b ++ [',', 'X']
  | .zeroPageY b => ' ' :: textByte b ++ [',', 'Y']
  | .relative d => ' ' :: textDisplacement d
  | .absolute w => ' ' :: textWord w
  | .absoluteX w => ' ' :: textWord w ++ [',', 'X']
  | .absoluteY w => ' ' :: textWord w ++ [',', 'Y']
  | .indirect w => [' ', '('] ++ textWord w ++ [')']
  | .indirectX b => [' ', '('] ++ textByte b ++ [',', 'X', ')']
  | .indirectY b => [' ', '('] ++ textByte b ++ [')', ',', 'Y']

/-- An instruction as the spec writes it (R85). -/
def textOf (i : Instr) : List Char := textMnemonic i.mnemonic ++ textOperand i.mnemonic i.form

/-- The displacement of a branch at an address that names its target (R85): "target − (address of the branch + 2), which must lie in
−128..127". -/
def branchDisplacement (branch target : Word) : Option Byte :=
  let d : Int := (target.toNat : Int) - (branch.toNat + 2)
  if -128 ≤ d ∧ d ≤ 127 then some (BitVec.ofInt 8 d) else none

end Sys2Proof.Machine
end

