-- ==== Sys2Proof/Tests/Slice0.lean ====
section
/-! SUPPORT. Tests: the well-formedness checks refuse what they should; every opcode of spec/30_encoding.md R75's map decodes to its
instruction; one-Step vectors of spec/95_test_vectors.md, each under its id there; and a witness for the hypotheses of each
obligation. -/

namespace Sys2Proof.Tests

open Sys2Proof Sys2Proof.Machine

/-! ## Well-formedness -/

/-- An alias table may not give a defined opcode byte (0xA9) a behaviour (R11). -/
theorem test_wf_refuses_defined_byte : (IllegalPolicy.aliased [(0x02, 0), (0xA9, 1)]).wf = false := by decide

/-- An alias table gives a byte at most one behaviour (R11). -/
theorem test_wf_refuses_duplicate_byte : (IllegalPolicy.aliased [(0x02, 0), (0x02, 1)]).wf = false := by decide

/-- An I/O region does not end before it begins (R52). -/
theorem test_wf_refuses_backward_region :
    ({ Config.standard with io := [⟨0x2007, 0x2000⟩] } : Config).wf = false := by decide

/-- The defaults, a table of undefined bytes and a region of one address are well formed. -/
theorem test_wf_accepts :
    Config.standard.wf = true ∧ (IllegalPolicy.aliased [(0x02, 0), (0xFF, 0)]).wf = true ∧ IoRegion.wf ⟨0x4016, 0x4016⟩ = true := by
  decide

/-- R72, R77: 105 bytes are undefined and 151 are not. -/
theorem test_wf_counts : undefinedOpcodes.length = 105 ∧ undefinedOpcodes.Nodup := by decide

/-! ## Decoding: every opcode of R75's map, operand byte 0x8C or operand word 0x9234 (bytes 34 92) -/

/-- Each byte sequence decodes to its instruction, with nothing left over. -/
def decodesAs (words : List (List Byte × Instr)) : Bool := words.all (fun w => decide (decode w.1 = .ok (w.2, [])))

theorem test_decode_row0 : decodesAs
    [([0x00], .brk), ([0x01, 0x8C], .oraIndX 0x8C), ([0x05, 0x8C], .oraZp 0x8C),
     ([0x06, 0x8C], .aslZp 0x8C), ([0x08], .php), ([0x09, 0x8C], .oraImm 0x8C),
     ([0x0A], .aslA), ([0x0D, 0x34, 0x92], .oraAbs 0x9234), ([0x0E, 0x34, 0x92], .aslAbs 0x9234)] = true := by decide

theorem test_decode_row1 : decodesAs
    [([0x10, 0x8C], .bpl 0x8C), ([0x11, 0x8C], .oraIndY 0x8C), ([0x15, 0x8C], .oraZpX 0x8C),
     ([0x16, 0x8C], .aslZpX 0x8C), ([0x18], .clc), ([0x19, 0x34, 0x92], .oraAbsY 0x9234),
     ([0x1D, 0x34, 0x92], .oraAbsX 0x9234), ([0x1E, 0x34, 0x92], .aslAbsX 0x9234)] = true := by decide

theorem test_decode_row2 : decodesAs
    [([0x20, 0x34, 0x92], .jsr 0x9234), ([0x21, 0x8C], .andIndX 0x8C), ([0x24, 0x8C], .bitZp 0x8C),
     ([0x25, 0x8C], .andZp 0x8C), ([0x26, 0x8C], .rolZp 0x8C), ([0x28], .plp),
     ([0x29, 0x8C], .andImm 0x8C), ([0x2A], .rolA), ([0x2C, 0x34, 0x92], .bitAbs 0x9234),
     ([0x2D, 0x34, 0x92], .andAbs 0x9234), ([0x2E, 0x34, 0x92], .rolAbs 0x9234)] = true := by decide

theorem test_decode_row3 : decodesAs
    [([0x30, 0x8C], .bmi 0x8C), ([0x31, 0x8C], .andIndY 0x8C), ([0x35, 0x8C], .andZpX 0x8C),
     ([0x36, 0x8C], .rolZpX 0x8C), ([0x38], .sec), ([0x39, 0x34, 0x92], .andAbsY 0x9234),
     ([0x3D, 0x34, 0x92], .andAbsX 0x9234), ([0x3E, 0x34, 0x92], .rolAbsX 0x9234)] = true := by decide

theorem test_decode_row4 : decodesAs
    [([0x40], .rti), ([0x41, 0x8C], .eorIndX 0x8C), ([0x45, 0x8C], .eorZp 0x8C),
     ([0x46, 0x8C], .lsrZp 0x8C), ([0x48], .pha), ([0x49, 0x8C], .eorImm 0x8C),
     ([0x4A], .lsrA), ([0x4C, 0x34, 0x92], .jmpAbs 0x9234), ([0x4D, 0x34, 0x92], .eorAbs 0x9234),
     ([0x4E, 0x34, 0x92], .lsrAbs 0x9234)] = true := by decide

theorem test_decode_row5 : decodesAs
    [([0x50, 0x8C], .bvc 0x8C), ([0x51, 0x8C], .eorIndY 0x8C), ([0x55, 0x8C], .eorZpX 0x8C),
     ([0x56, 0x8C], .lsrZpX 0x8C), ([0x58], .cli), ([0x59, 0x34, 0x92], .eorAbsY 0x9234),
     ([0x5D, 0x34, 0x92], .eorAbsX 0x9234), ([0x5E, 0x34, 0x92], .lsrAbsX 0x9234)] = true := by decide

theorem test_decode_row6 : decodesAs
    [([0x60], .rts), ([0x61, 0x8C], .adcIndX 0x8C), ([0x65, 0x8C], .adcZp 0x8C),
     ([0x66, 0x8C], .rorZp 0x8C), ([0x68], .pla), ([0x69, 0x8C], .adcImm 0x8C),
     ([0x6A], .rorA), ([0x6C, 0x34, 0x92], .jmpInd 0x9234), ([0x6D, 0x34, 0x92], .adcAbs 0x9234),
     ([0x6E, 0x34, 0x92], .rorAbs 0x9234)] = true := by decide

theorem test_decode_row7 : decodesAs
    [([0x70, 0x8C], .bvs 0x8C), ([0x71, 0x8C], .adcIndY 0x8C), ([0x75, 0x8C], .adcZpX 0x8C),
     ([0x76, 0x8C], .rorZpX 0x8C), ([0x78], .sei), ([0x79, 0x34, 0x92], .adcAbsY 0x9234),
     ([0x7D, 0x34, 0x92], .adcAbsX 0x9234), ([0x7E, 0x34, 0x92], .rorAbsX 0x9234)] = true := by decide

theorem test_decode_row8 : decodesAs
    [([0x81, 0x8C], .staIndX 0x8C), ([0x84, 0x8C], .styZp 0x8C), ([0x85, 0x8C], .staZp 0x8C),
     ([0x86, 0x8C], .stxZp 0x8C), ([0x88], .dey), ([0x8A], .txa),
     ([0x8C, 0x34, 0x92], .styAbs 0x9234), ([0x8D, 0x34, 0x92], .staAbs 0x9234), ([0x8E, 0x34, 0x92], .stxAbs 0x9234)] = true := by decide

theorem test_decode_row9 : decodesAs
    [([0x90, 0x8C], .bcc 0x8C), ([0x91, 0x8C], .staIndY 0x8C), ([0x94, 0x8C], .styZpX 0x8C),
     ([0x95, 0x8C], .staZpX 0x8C), ([0x96, 0x8C], .stxZpY 0x8C), ([0x98], .tya),
     ([0x99, 0x34, 0x92], .staAbsY 0x9234), ([0x9A], .txs), ([0x9D, 0x34, 0x92], .staAbsX 0x9234)] = true := by decide

theorem test_decode_rowA : decodesAs
    [([0xA0, 0x8C], .ldyImm 0x8C), ([0xA1, 0x8C], .ldaIndX 0x8C), ([0xA2, 0x8C], .ldxImm 0x8C),
     ([0xA4, 0x8C], .ldyZp 0x8C), ([0xA5, 0x8C], .ldaZp 0x8C), ([0xA6, 0x8C], .ldxZp 0x8C),
     ([0xA8], .tay), ([0xA9, 0x8C], .ldaImm 0x8C), ([0xAA], .tax),
     ([0xAC, 0x34, 0x92], .ldyAbs 0x9234), ([0xAD, 0x34, 0x92], .ldaAbs 0x9234), ([0xAE, 0x34, 0x92], .ldxAbs 0x9234)] = true := by decide

theorem test_decode_rowB : decodesAs
    [([0xB0, 0x8C], .bcs 0x8C), ([0xB1, 0x8C], .ldaIndY 0x8C), ([0xB4, 0x8C], .ldyZpX 0x8C),
     ([0xB5, 0x8C], .ldaZpX 0x8C), ([0xB6, 0x8C], .ldxZpY 0x8C), ([0xB8], .clv),
     ([0xB9, 0x34, 0x92], .ldaAbsY 0x9234), ([0xBA], .tsx), ([0xBC, 0x34, 0x92], .ldyAbsX 0x9234),
     ([0xBD, 0x34, 0x92], .ldaAbsX 0x9234), ([0xBE, 0x34, 0x92], .ldxAbsY 0x9234)] = true := by decide

theorem test_decode_rowC : decodesAs
    [([0xC0, 0x8C], .cpyImm 0x8C), ([0xC1, 0x8C], .cmpIndX 0x8C), ([0xC4, 0x8C], .cpyZp 0x8C),
     ([0xC5, 0x8C], .cmpZp 0x8C), ([0xC6, 0x8C], .decZp 0x8C), ([0xC8], .iny),
     ([0xC9, 0x8C], .cmpImm 0x8C), ([0xCA], .dex), ([0xCC, 0x34, 0x92], .cpyAbs 0x9234),
     ([0xCD, 0x34, 0x92], .cmpAbs 0x9234), ([0xCE, 0x34, 0x92], .decAbs 0x9234)] = true := by decide

theorem test_decode_rowD : decodesAs
    [([0xD0, 0x8C], .bne 0x8C), ([0xD1, 0x8C], .cmpIndY 0x8C), ([0xD5, 0x8C], .cmpZpX 0x8C),
     ([0xD6, 0x8C], .decZpX 0x8C), ([0xD8], .cld), ([0xD9, 0x34, 0x92], .cmpAbsY 0x9234),
     ([0xDD, 0x34, 0x92], .cmpAbsX 0x9234), ([0xDE, 0x34, 0x92], .decAbsX 0x9234)] = true := by decide

theorem test_decode_rowE : decodesAs
    [([0xE0, 0x8C], .cpxImm 0x8C), ([0xE1, 0x8C], .sbcIndX 0x8C), ([0xE4, 0x8C], .cpxZp 0x8C),
     ([0xE5, 0x8C], .sbcZp 0x8C), ([0xE6, 0x8C], .incZp 0x8C), ([0xE8], .inx),
     ([0xE9, 0x8C], .sbcImm 0x8C), ([0xEA], .nop), ([0xEC, 0x34, 0x92], .cpxAbs 0x9234),
     ([0xED, 0x34, 0x92], .sbcAbs 0x9234), ([0xEE, 0x34, 0x92], .incAbs 0x9234)] = true := by decide

theorem test_decode_rowF : decodesAs
    [([0xF0, 0x8C], .beq 0x8C), ([0xF1, 0x8C], .sbcIndY 0x8C), ([0xF5, 0x8C], .sbcZpX 0x8C),
     ([0xF6, 0x8C], .incZpX 0x8C), ([0xF8], .sed), ([0xF9, 0x34, 0x92], .sbcAbsY 0x9234),
     ([0xFD, 0x34, 0x92], .sbcAbsX 0x9234), ([0xFE, 0x34, 0x92], .incAbsX 0x9234)] = true := by decide

/-- The first undefined byte of each row of R75's map is rejected by name. -/
theorem test_decode_undefined :
    ([0x02, 0x12, 0x22, 0x32, 0x42, 0x52, 0x62, 0x72, 0x80, 0x92, 0xA3, 0xB2, 0xC2, 0xD2, 0xE2, 0xF2] : List Byte).all
      (fun op => decide (decode [op, 0x00, 0x00] = .error (.undefinedOpcode op))) = true := by decide

/-- Too few bytes are rejected under a name of their own. -/
theorem test_decode_truncated : decode [] = .error .truncated ∧ decode [0xA9] = .error .truncated ∧
    decode [0x8D, 0x00] = .error .truncated := by
  refine ⟨by decide, by decide, by decide⟩

/-- The word of a table row, numbered as opcode_table.json numbers it: STA $0200 is 8D 00 02, and with no operand bits, STA $0000. -/
theorem test_decodeTableWord : decodeTableWord 24 0x02008D = some (.staAbs 0x0200) ∧
    decodeTableWord 8 0x8D = some (.staAbs 0x0000) ∧ decodeTableWord 8 0x02 = none := by
  refine ⟨by decide, by decide, by decide⟩

/-! ## One-Step vectors of spec/95_test_vectors.md -/

/-- The start of a vector, as that file's conventions give it: registers and P, the code at PC, the other memory listed. -/
def start (a x y sp p : Byte) (pc : Word) (code : List Byte) (data : List (Word × Byte)) : State :=
  { State.powerOn ⟨a, x, y, sp, pc, flagsOfByte p⟩ 0
      (data.foldl (fun m c => Memory.write m c.1.toNat c.2) (placeBytes code pc [])) Config.standard with resetPending := false }

/-- The same start under another `DECIMAL_MODE`. -/
def decimal (m : DecimalMode) (s : State) : State := { s with cfg := { s.cfg with decimalMode := m } }

/-- One Step is `Ok`, and its state passes a check. -/
def runs (s : State) (check : State → Bool) : Bool :=
  match step s with
  | .next t => check t
  | _ => false

/-- The events since an empty history, oldest first. -/
def eventsOf (t : State) : List BusEvent := t.trace.reverse

/-- E1 (R110, R240). -/
theorem test_E1_jmpInd : runs (start 0x00 0x00 0x00 0xFD 0x20 0x0200 [0x6C, 0xFF, 0x30] [(0x3000, 0x80), (0x30FF, 0x40), (0x3100, 0x50)])
    (fun t => registerView t.flags == 0x20 && t.pc == 0x8040 && t.cycles == 5 &&
      eventsOf t == [.read 0x0200 0x6C, .read 0x0201 0xFF, .read 0x0202 0x30, .read 0x30FF 0x40, .read 0x3000 0x80]) = true := by decide

/-- E2d (R26, R131): prior N and Z do not matter. -/
theorem test_E2d_ldaImm : runs (start 0x00 0x00 0x00 0xFD 0x22 0x0200 [0xA9, 0x80] [])
    (fun t => t.a == 0x80 && registerView t.flags == 0xA0 && t.pc == 0x0202 && t.cycles == 2) = true := by decide

/-- E3a (R182): A=A0, C=0, V=1 (N=1). -/
theorem test_E3a_adcImm : runs (start 0x50 0x00 0x00 0xFD 0x20 0x0200 [0x69, 0x50] [])
    (fun t => t.a == 0xA0 && registerView t.flags == 0xE0 && t.pc == 0x0202 && t.cycles == 2) = true := by decide

/-- E3b (R182): A=20, C=1, V=0. -/
theorem test_E3b_adcImm : runs (start 0x50 0x00 0x00 0xFD 0x20 0x0200 [0x69, 0xD0] [])
    (fun t => t.a == 0x20 && registerView t.flags == 0x21 && t.pc == 0x0202 && t.cycles == 2) = true := by decide

/-- AM1 (R103): ZeroPage. -/
theorem test_AM1_ldaZp : runs (start 0x00 0x00 0x00 0xFD 0x20 0x0200 [0xA5, 0x10] [(0x0010, 0x55)])
    (fun t => t.a == 0x55 && registerView t.flags == 0x20 && t.pc == 0x0202 && t.cycles == 3) = true := by decide

/-- AM2 (R104): ZeroPageX wraps in page 0: F8+10 -> 08. -/
theorem test_AM2_ldaZpX : runs (start 0x00 0x10 0x00 0xFD 0x20 0x0200 [0xB5, 0xF8] [(0x0008, 0x66)])
    (fun t => t.a == 0x66 && registerView t.flags == 0x20 && t.pc == 0x0202 && t.cycles == 4) = true := by decide

/-- AM3 (R105): ZeroPageY wraps: 10+FF -> 0F. -/
theorem test_AM3_ldxZpY : runs (start 0x00 0x00 0xFF 0xFD 0x20 0x0200 [0xB6, 0x10] [(0x000F, 0x77)])
    (fun t => t.x == 0x77 && registerView t.flags == 0x20 && t.pc == 0x0202 && t.cycles == 4) = true := by decide

/-- AM4 (R107): Absolute, little-endian. -/
theorem test_AM4_ldaAbs : runs (start 0x00 0x00 0x00 0xFD 0x20 0x0200 [0xAD, 0x34, 0x12] [(0x1234, 0x01)])
    (fun t => t.a == 0x01 && registerView t.flags == 0x20 && t.pc == 0x0203 && t.cycles == 4) = true := by decide

/-- AM6 (R108, R355): AbsoluteX crosses: 5 ticks. -/
theorem test_AM6_ldaAbsX : runs (start 0x00 0x10 0x00 0xFD 0x20 0x0200 [0xBD, 0xF8, 0x12] [(0x1308, 0x03)])
    (fun t => t.a == 0x03 && registerView t.flags == 0x20 && t.pc == 0x0203 && t.cycles == 5) = true := by decide

/-- AM7 (R108, D21): 16-bit wrap FFF0+20 -> 0010, crossed. -/
theorem test_AM7_ldaAbsX : runs (start 0x00 0x20 0x00 0xFD 0x20 0x0200 [0xBD, 0xF0, 0xFF] [(0x0010, 0x04)])
    (fun t => t.a == 0x04 && registerView t.flags == 0x20 && t.pc == 0x0203 && t.cycles == 5) = true := by decide

/-- AM8 (R109, R355): AbsoluteY crosses: 5 ticks. -/
theorem test_AM8_ldaAbsY : runs (start 0x00 0x00 0xFF 0xFD 0x20 0x0200 [0xB9, 0x01, 0x12] [(0x1300, 0x05)])
    (fun t => t.a == 0x05 && registerView t.flags == 0x20 && t.pc == 0x0203 && t.cycles == 5) = true := by decide

/-- AM10 (R111): IndirectX: FE+05 -> 03. -/
theorem test_AM10_ldaIndX : runs (start 0x00 0x05 0x00 0xFD 0x20 0x0200 [0xA1, 0xFE] [(0x0003, 0x00), (0x0004, 0x20), (0x2000, 0x06)])
    (fun t => t.a == 0x06 && registerView t.flags == 0x20 && t.pc == 0x0202 && t.cycles == 6) = true := by decide

/-- AM11 (R111): IndirectX pointer wraps: FF, 00. -/
theorem test_AM11_ldaIndX : runs (start 0x00 0x00 0x00 0xFD 0x20 0x0200 [0xA1, 0xFF] [(0x0000, 0x20), (0x00FF, 0x10), (0x2010, 0x07)])
    (fun t => t.a == 0x07 && registerView t.flags == 0x20 && t.pc == 0x0202 && t.cycles == 6 &&
      eventsOf t == [.read 0x0200 0xA1, .read 0x0201 0xFF, .read 0x00FF 0x10, .read 0x0000 0x20, .read 0x2010 0x07]) = true := by decide

/-- AM13 (R112, R355): IndirectY crosses: 6 ticks. -/
theorem test_AM13_ldaIndY : runs (start 0x00 0x00 0x01 0xFD 0x20 0x0200 [0xB1, 0x20] [(0x0020, 0xFF), (0x0021, 0x10), (0x1100, 0x09)])
    (fun t => t.a == 0x09 && registerView t.flags == 0x20 && t.pc == 0x0202 && t.cycles == 6) = true := by decide

/-- AM14 (R112): IndirectY pointer wraps: FF, 00. -/
theorem test_AM14_ldaIndY : runs (start 0x00 0x00 0x00 0xFD 0x20 0x0200 [0xB1, 0xFF] [(0x0000, 0x30), (0x00FF, 0x00), (0x3000, 0x0A)])
    (fun t => t.a == 0x0A && registerView t.flags == 0x20 && t.pc == 0x0202 && t.cycles == 5 &&
      eventsOf t == [.read 0x0200 0xB1, .read 0x0201 0xFF, .read 0x00FF 0x00, .read 0x0000 0x30, .read 0x3000 0x0A]) = true := by decide

/-- AM15 (R106, R356): Relative backward, crossed: 0302-80 = 0282, 4 ticks. -/
theorem test_AM15_bne : runs (start 0x00 0x00 0x00 0xFD 0x20 0x0300 [0xD0, 0x80] [])
    (fun t => registerView t.flags == 0x20 && t.pc == 0x0282 && t.cycles == 4) = true := by decide

/-- AM16 (R106): Relative target wraps: FFF2+7F = 0071. -/
theorem test_AM16_bne : runs (start 0x00 0x00 0x00 0xFD 0x20 0xFFF0 [0xD0, 0x7F] [])
    (fun t => registerView t.flags == 0x20 && t.pc == 0x0071 && t.cycles == 4) = true := by decide

/-- AM17 (R134, R355): STA abs,X crossing: 5 ticks, no page-cross tick. -/
theorem test_AM17_staAbsX : runs (start 0x42 0x01 0x00 0xFD 0x20 0x0200 [0x9D, 0xFF, 0x12] [])
    (fun t => registerView t.flags == 0x20 && t.pc == 0x0203 && t.cycles == 5 &&
      eventsOf t == [.read 0x0200 0x9D, .read 0x0201 0xFF, .read 0x0202 0x12, .write 0x1300 0x42]) = true := by decide

/-- AM18 (R134, R355): STA (zp),Y crossing: 6 ticks. -/
theorem test_AM18_staIndY : runs (start 0x42 0x00 0x01 0xFD 0x20 0x0200 [0x91, 0x20] [(0x0020, 0xFF), (0x0021, 0x10)])
    (fun t => registerView t.flags == 0x20 && t.pc == 0x0202 && t.cycles == 6 &&
      eventsOf t == [.read 0x0200 0x91, .read 0x0201 0x20, .read 0x0020 0xFF, .read 0x0021 0x10, .write 0x1100 0x42]) = true := by decide

/-- AM19 (R205, R355): INC abs,X crossing: 7 ticks. -/
theorem test_AM19_incAbsX : runs (start 0x00 0x01 0x00 0xFD 0x20 0x0200 [0xFE, 0xFF, 0x12] [(0x1300, 0x7F)])
    (fun t => registerView t.flags == 0xA0 && t.pc == 0x0203 && t.cycles == 7 &&
      eventsOf t == [.read 0x0200 0xFE, .read 0x0201 0xFF, .read 0x0202 0x12, .read 0x1300 0x7F, .write 0x1300 0x80]) = true := by decide

/-- LS1 (R131): Z=1. -/
theorem test_LS1_ldaImm : runs (start 0x00 0x00 0x00 0xFD 0x20 0x0200 [0xA9, 0x00] [])
    (fun t => registerView t.flags == 0x22 && t.pc == 0x0202 && t.cycles == 2) = true := by decide

/-- LS3 (R132): LDX zp. -/
theorem test_LS3_ldxZp : runs (start 0x00 0x00 0x00 0xFD 0x20 0x0200 [0xA6, 0x10] [(0x0010, 0xFF)])
    (fun t => t.x == 0xFF && registerView t.flags == 0xA0 && t.pc == 0x0202 && t.cycles == 3) = true := by decide

/-- LS4 (R132): LDX abs,Y. -/
theorem test_LS4_ldxAbsY : runs (start 0x00 0x00 0x03 0xFD 0x20 0x0200 [0xBE, 0x00, 0x20] [(0x2003, 0x11)])
    (fun t => t.x == 0x11 && registerView t.flags == 0x20 && t.pc == 0x0203 && t.cycles == 4) = true := by decide

/-- LS5 (R133): LDY abs,X, Z=1. -/
theorem test_LS5_ldyAbsX : runs (start 0x00 0x02 0x00 0xFD 0x20 0x0200 [0xBC, 0x00, 0x20] [(0x2002, 0x00)])
    (fun t => registerView t.flags == 0x22 && t.pc == 0x0203 && t.cycles == 4) = true := by decide

/-- LS6 (R134): STA (zp,X), no flags. -/
theorem test_LS6_staIndX : runs (start 0x5A 0x02 0x00 0xFD 0x20 0x0200 [0x81, 0x10] [(0x0012, 0x00), (0x0013, 0x03)])
    (fun t => registerView t.flags == 0x20 && t.pc == 0x0202 && t.cycles == 6 &&
      eventsOf t == [.read 0x0200 0x81, .read 0x0201 0x10, .read 0x0012 0x00, .read 0x0013 0x03, .write 0x0300 0x5A]) = true := by decide

/-- LS7 (R134): STA leaves N,Z. -/
theorem test_LS7_staZp : runs (start 0x00 0x00 0x00 0xFD 0xA0 0x0200 [0x85, 0x10] [])
    (fun t => registerView t.flags == 0xA0 && t.pc == 0x0202 && t.cycles == 3 &&
      eventsOf t == [.read 0x0200 0x85, .read 0x0201 0x10, .write 0x0010 0x00]) = true := by decide

/-- LS8 (R135): STX zp,Y wraps: F0+20 -> 10. -/
theorem test_LS8_stxZpY : runs (start 0x00 0x9C 0x20 0xFD 0x20 0x0200 [0x96, 0xF0] [])
    (fun t => registerView t.flags == 0x20 && t.pc == 0x0202 && t.cycles == 4 &&
      eventsOf t == [.read 0x0200 0x96, .read 0x0201 0xF0, .write 0x0010 0x9C]) = true := by decide

/-- LS9 (R135). -/
theorem test_LS9_stxAbs : runs (start 0x00 0x01 0x00 0xFD 0x20 0x0200 [0x8E, 0x00, 0x04] [])
    (fun t => registerView t.flags == 0x20 && t.pc == 0x0203 && t.cycles == 4 &&
      eventsOf t == [.read 0x0200 0x8E, .read 0x0201 0x00, .read 0x0202 0x04, .write 0x0400 0x01]) = true := by decide

/-- LS10 (R136): STY zp,X wraps -> 01. -/
theorem test_LS10_styZpX : runs (start 0x00 0x02 0x33 0xFD 0x20 0x0200 [0x94, 0xFF] [])
    (fun t => registerView t.flags == 0x20 && t.pc == 0x0202 && t.cycles == 4 &&
      eventsOf t == [.read 0x0200 0x94, .read 0x0201 0xFF, .write 0x0001 0x33]) = true := by decide

/-- LS11 (R136). -/
theorem test_LS11_styAbs : runs (start 0x00 0x00 0x80 0xFD 0x20 0x0200 [0x8C, 0x00, 0x04] [])
    (fun t => registerView t.flags == 0x20 && t.pc == 0x0203 && t.cycles == 4 &&
      eventsOf t == [.read 0x0200 0x8C, .read 0x0201 0x00, .read 0x0202 0x04, .write 0x0400 0x80]) = true := by decide

/-- LS12 (R138): TAX, Z=1. -/
theorem test_LS12_tax : runs (start 0x00 0x55 0x00 0xFD 0x20 0x0200 [0xAA] [])
    (fun t => t.x == 0x00 && registerView t.flags == 0x22 && t.pc == 0x0201 && t.cycles == 2) = true := by decide

/-- LS13 (R139): TXA, N=1. -/
theorem test_LS13_txa : runs (start 0x00 0xFF 0x00 0xFD 0x20 0x0200 [0x8A] [])
    (fun t => t.a == 0xFF && registerView t.flags == 0xA0 && t.pc == 0x0201 && t.cycles == 2) = true := by decide

/-- LS14 (R140). -/
theorem test_LS14_tay : runs (start 0x10 0x00 0x00 0xFD 0x20 0x0200 [0xA8] [])
    (fun t => t.y == 0x10 && registerView t.flags == 0x20 && t.pc == 0x0201 && t.cycles == 2) = true := by decide

/-- LS15 (R141). -/
theorem test_LS15_tya : runs (start 0x01 0x00 0x80 0xFD 0x20 0x0200 [0x98] [])
    (fun t => t.a == 0x80 && registerView t.flags == 0xA0 && t.pc == 0x0201 && t.cycles == 2) = true := by decide

/-- LS16 (R142): TSX with SP=FD: N=1. -/
theorem test_LS16_tsx : runs (start 0x00 0x00 0x00 0xFD 0x20 0x0200 [0xBA] [])
    (fun t => t.x == 0xFD && registerView t.flags == 0xA0 && t.pc == 0x0201 && t.cycles == 2) = true := by decide

/-- LS17 (R142): TSX with SP=00: Z=1. -/
theorem test_LS17_tsx : runs (start 0x00 0x44 0x00 0x00 0x20 0x0200 [0xBA] [])
    (fun t => t.x == 0x00 && registerView t.flags == 0x22 && t.pc == 0x0201 && t.cycles == 2) = true := by decide

/-- LS18 (R143): TXS: flags unchanged. -/
theorem test_LS18_txs : runs (start 0x00 0x80 0x00 0xFD 0x22 0x0200 [0x9A] [])
    (fun t => t.sp == 0x80 && registerView t.flags == 0x22 && t.pc == 0x0201 && t.cycles == 2) = true := by decide

/-- E4b (R161): write at 0100, SP wraps to FF. -/
theorem test_E4b_pha : runs (start 0x11 0x00 0x00 0x00 0x20 0x0200 [0x48] [])
    (fun t => t.sp == 0xFF && registerView t.flags == 0x20 && t.pc == 0x0201 && t.cycles == 3 &&
      eventsOf t == [.read 0x0200 0x48, .write 0x0100 0x11]) = true := by decide

/-- ST2 (R162): PLA 00: Z=1. -/
theorem test_ST2_pla : runs (start 0x77 0x00 0x00 0xFC 0x20 0x0200 [0x68] [(0x01FD, 0x00)])
    (fun t => t.a == 0x00 && t.sp == 0xFD && registerView t.flags == 0x22 && t.pc == 0x0201 && t.cycles == 4) = true := by decide

/-- ST3 (R162): PLA at SP=FF reads 0100, SP wraps to 00. -/
theorem test_ST3_pla : runs (start 0x00 0x00 0x00 0xFF 0x20 0x0200 [0x68] [(0x0100, 0x9F)])
    (fun t => t.a == 0x9F && t.sp == 0x00 && registerView t.flags == 0xA0 && t.pc == 0x0201 && t.cycles == 4) = true := by decide

/-- ST4 (R163): PHP pushes 34. -/
theorem test_ST4_php : runs (start 0x00 0x00 0x00 0xFD 0x24 0x0200 [0x08] [])
    (fun t => t.sp == 0xFC && registerView t.flags == 0x24 && t.pc == 0x0201 && t.cycles == 3 &&
      eventsOf t == [.read 0x0200 0x08, .write 0x01FD 0x34]) = true := by decide

/-- ST5 (R163): PHP with all flags: pushes FF. -/
theorem test_ST5_php : runs (start 0x00 0x00 0x00 0xFD 0xEF 0x0200 [0x08] [])
    (fun t => t.sp == 0xFC && registerView t.flags == 0xEF && t.pc == 0x0201 && t.cycles == 3 &&
      eventsOf t == [.read 0x0200 0x08, .write 0x01FD 0xFF]) = true := by decide

/-- ST6 (R164): PLP FF: P=EF, bit 4 discarded. -/
theorem test_ST6_plp : runs (start 0x00 0x00 0x00 0xFC 0x20 0x0200 [0x28] [(0x01FD, 0xFF)])
    (fun t => t.sp == 0xFD && registerView t.flags == 0xEF && t.pc == 0x0201 && t.cycles == 4) = true := by decide

/-- ST7 (R164): PLP 00: P=20, bit 5 still 1. -/
theorem test_ST7_plp : runs (start 0x00 0x00 0x00 0xFC 0xEF 0x0200 [0x28] [(0x01FD, 0x00)])
    (fun t => t.sp == 0xFD && registerView t.flags == 0x20 && t.pc == 0x0201 && t.cycles == 4) = true := by decide

/-- AR1 (R182): FF+00+1 = 00, C=1, Z=1. -/
theorem test_AR1_adcImm : runs (start 0xFF 0x00 0x00 0xFD 0x21 0x0200 [0x69, 0x00] [])
    (fun t => t.a == 0x00 && registerView t.flags == 0x23 && t.pc == 0x0202 && t.cycles == 2) = true := by decide

/-- AR5 (R182): D=1 under Binary: binary sum 3C. -/
theorem test_AR5_adcImm : runs (start 0x15 0x00 0x00 0xFD 0x28 0x0200 [0x69, 0x27] [])
    (fun t => t.a == 0x3C && registerView t.flags == 0x28 && t.pc == 0x0202 && t.cycles == 2) = true := by decide

/-- AR6 (R184): 50-B0: A0, C=0, V=1. -/
theorem test_AR6_sbcImm : runs (start 0x50 0x00 0x00 0xFD 0x21 0x0200 [0xE9, 0xB0] [])
    (fun t => t.a == 0xA0 && registerView t.flags == 0xE0 && t.pc == 0x0202 && t.cycles == 2) = true := by decide

/-- AR9 (R184): C=0 borrows: 10-01-1 = 0E, C=1. -/
theorem test_AR9_sbcImm : runs (start 0x10 0x00 0x00 0xFD 0x20 0x0200 [0xE9, 0x01] [])
    (fun t => t.a == 0x0E && registerView t.flags == 0x21 && t.pc == 0x0202 && t.cycles == 2) = true := by decide

/-- LG1 (R186): AND: 80, N=1. -/
theorem test_LG1_andImm : runs (start 0xF0 0x00 0x00 0xFD 0x20 0x0200 [0x29, 0x8F] [])
    (fun t => t.a == 0x80 && registerView t.flags == 0xA0 && t.pc == 0x0202 && t.cycles == 2) = true := by decide

/-- LG3 (R187): ORA: 81. -/
theorem test_LG3_oraImm : runs (start 0x01 0x00 0x00 0xFD 0x20 0x0200 [0x09, 0x80] [])
    (fun t => t.a == 0x81 && registerView t.flags == 0xA0 && t.pc == 0x0202 && t.cycles == 2) = true := by decide

/-- LG4 (R187): ORA zp: 00, Z=1. -/
theorem test_LG4_oraZp : runs (start 0x00 0x00 0x00 0xFD 0x20 0x0200 [0x05, 0x10] [(0x0010, 0x00)])
    (fun t => registerView t.flags == 0x22 && t.pc == 0x0202 && t.cycles == 3) = true := by decide

/-- LG5 (R188): EOR FF complements: F0. -/
theorem test_LG5_eorImm : runs (start 0x0F 0x00 0x00 0xFD 0x20 0x0200 [0x49, 0xFF] [])
    (fun t => t.a == 0xF0 && registerView t.flags == 0xA0 && t.pc == 0x0202 && t.cycles == 2) = true := by decide

/-- LG7 (R189): BIT: Z=1, N=1, V=1 from M. -/
theorem test_LG7_bitZp : runs (start 0x01 0x00 0x00 0xFD 0x20 0x0200 [0x24, 0x10] [(0x0010, 0xC0)])
    (fun t => registerView t.flags == 0xE2 && t.pc == 0x0202 && t.cycles == 3) = true := by decide

/-- LG8 (R189): BIT: N, V cleared from M; Z=0; A unchanged. -/
theorem test_LG8_bitAbs : runs (start 0xFF 0x00 0x00 0xFD 0xE0 0x0200 [0x2C, 0x00, 0x30] [(0x3000, 0x01)])
    (fun t => registerView t.flags == 0x20 && t.pc == 0x0203 && t.cycles == 4) = true := by decide

/-- SH1 (R201): ASL A: 00, C=1, Z=1. -/
theorem test_SH1_aslA : runs (start 0x80 0x00 0x00 0xFD 0x20 0x0200 [0x0A] [])
    (fun t => t.a == 0x00 && registerView t.flags == 0x23 && t.pc == 0x0201 && t.cycles == 2) = true := by decide

/-- SH2 (R201): ASL zp: 80, N=1, one read, one write. -/
theorem test_SH2_aslZp : runs (start 0x00 0x00 0x00 0xFD 0x20 0x0200 [0x06, 0x10] [(0x0010, 0x40)])
    (fun t => registerView t.flags == 0xA0 && t.pc == 0x0202 && t.cycles == 5 &&
      eventsOf t == [.read 0x0200 0x06, .read 0x0201 0x10, .read 0x0010 0x40, .write 0x0010 0x80]) = true := by decide

/-- SH3 (R202): LSR A: 00, C=1, Z=1. -/
theorem test_SH3_lsrA : runs (start 0x01 0x00 0x00 0xFD 0x20 0x0200 [0x4A] [])
    (fun t => t.a == 0x00 && registerView t.flags == 0x23 && t.pc == 0x0201 && t.cycles == 2) = true := by decide

/-- SH4 (R202): LSR abs: 7F, C=1. -/
theorem test_SH4_lsrAbs : runs (start 0x00 0x00 0x00 0xFD 0x20 0x0200 [0x4E, 0x00, 0x30] [(0x3000, 0xFF)])
    (fun t => registerView t.flags == 0x21 && t.pc == 0x0203 && t.cycles == 6 &&
      eventsOf t == [.read 0x0200 0x4E, .read 0x0201 0x00, .read 0x0202 0x30, .read 0x3000 0xFF, .write 0x3000 0x7F]) = true := by decide

/-- SH5 (R203): ROL A with C=0: 00, C=1, Z=1. -/
theorem test_SH5_rolA : runs (start 0x80 0x00 0x00 0xFD 0x20 0x0200 [0x2A] [])
    (fun t => t.a == 0x00 && registerView t.flags == 0x23 && t.pc == 0x0201 && t.cycles == 2) = true := by decide

/-- SH6 (R203): ROL zp,X with C=1: 81. -/
theorem test_SH6_rolZpX : runs (start 0x00 0x01 0x00 0xFD 0x21 0x0200 [0x36, 0x10] [(0x0011, 0x40)])
    (fun t => registerView t.flags == 0xA0 && t.pc == 0x0202 && t.cycles == 6 &&
      eventsOf t == [.read 0x0200 0x36, .read 0x0201 0x10, .read 0x0011 0x40, .write 0x0011 0x81]) = true := by decide

/-- SH7 (R204): ROR A with C=1: 80, N=1, C=0. -/
theorem test_SH7_rorA : runs (start 0x00 0x00 0x00 0xFD 0x21 0x0200 [0x6A] [])
    (fun t => t.a == 0x80 && registerView t.flags == 0xA0 && t.pc == 0x0201 && t.cycles == 2) = true := by decide

/-- SH8 (R204): ROR abs,X: 00, C=1, Z=1, 7 ticks. -/
theorem test_SH8_rorAbsX : runs (start 0x00 0x05 0x00 0xFD 0x20 0x0200 [0x7E, 0x00, 0x30] [(0x3005, 0x01)])
    (fun t => registerView t.flags == 0x23 && t.pc == 0x0203 && t.cycles == 7 &&
      eventsOf t == [.read 0x0200 0x7E, .read 0x0201 0x00, .read 0x0202 0x30, .read 0x3005 0x01, .write 0x3005 0x00]) = true := by decide

/-- ID1 (R205): INC FF: 00, Z=1, C unchanged. -/
theorem test_ID1_incZp : runs (start 0x00 0x00 0x00 0xFD 0x21 0x0200 [0xE6, 0x10] [(0x0010, 0xFF)])
    (fun t => registerView t.flags == 0x23 && t.pc == 0x0202 && t.cycles == 5 &&
      eventsOf t == [.read 0x0200 0xE6, .read 0x0201 0x10, .read 0x0010 0xFF, .write 0x0010 0x00]) = true := by decide

/-- ID2 (R205): INC zp,X: 80, N=1. -/
theorem test_ID2_incZpX : runs (start 0x00 0x01 0x00 0xFD 0x20 0x0200 [0xF6, 0x10] [(0x0011, 0x7F)])
    (fun t => registerView t.flags == 0xA0 && t.pc == 0x0202 && t.cycles == 6 &&
      eventsOf t == [.read 0x0200 0xF6, .read 0x0201 0x10, .read 0x0011 0x7F, .write 0x0011 0x80]) = true := by decide

/-- ID3 (R206): DEC 00: FF, N=1. -/
theorem test_ID3_decAbs : runs (start 0x00 0x00 0x00 0xFD 0x20 0x0200 [0xCE, 0x00, 0x30] [(0x3000, 0x00)])
    (fun t => registerView t.flags == 0xA0 && t.pc == 0x0203 && t.cycles == 6 &&
      eventsOf t == [.read 0x0200 0xCE, .read 0x0201 0x00, .read 0x0202 0x30, .read 0x3000 0x00, .write 0x3000 0xFF]) = true := by decide

/-- ID4 (R206): DEC 01: 00, Z=1. -/
theorem test_ID4_decZp : runs (start 0x00 0x00 0x00 0xFD 0x20 0x0200 [0xC6, 0x10] [(0x0010, 0x01)])
    (fun t => registerView t.flags == 0x22 && t.pc == 0x0202 && t.cycles == 5 &&
      eventsOf t == [.read 0x0200 0xC6, .read 0x0201 0x10, .read 0x0010 0x01, .write 0x0010 0x00]) = true := by decide

/-- ID5 (R207): INX FF: 00, Z=1. -/
theorem test_ID5_inx : runs (start 0x00 0xFF 0x00 0xFD 0x20 0x0200 [0xE8] [])
    (fun t => t.x == 0x00 && registerView t.flags == 0x22 && t.pc == 0x0201 && t.cycles == 2) = true := by decide

/-- ID6 (R208): DEX 00: FF, N=1. -/
theorem test_ID6_dex : runs (start 0x00 0x00 0x00 0xFD 0x20 0x0200 [0xCA] [])
    (fun t => t.x == 0xFF && registerView t.flags == 0xA0 && t.pc == 0x0201 && t.cycles == 2) = true := by decide

/-- ID7 (R209): INY: 80, N=1. -/
theorem test_ID7_iny : runs (start 0x00 0x00 0x7F 0xFD 0x20 0x0200 [0xC8] [])
    (fun t => t.y == 0x80 && registerView t.flags == 0xA0 && t.pc == 0x0201 && t.cycles == 2) = true := by decide

/-- ID8 (R210): DEY: 00, Z=1. -/
theorem test_ID8_dey : runs (start 0x00 0x00 0x01 0xFD 0x20 0x0200 [0x88] [])
    (fun t => t.y == 0x00 && registerView t.flags == 0x22 && t.pc == 0x0201 && t.cycles == 2) = true := by decide

/-- CP1 (R212): CMP equal: C=1, Z=1. -/
theorem test_CP1_cmpImm : runs (start 0x40 0x00 0x00 0xFD 0x20 0x0200 [0xC9, 0x40] [])
    (fun t => registerView t.flags == 0x23 && t.pc == 0x0202 && t.cycles == 2) = true := by decide

/-- CP2 (R212): CMP less: C=0, N=1. -/
theorem test_CP2_cmpImm : runs (start 0x00 0x00 0x00 0xFD 0x20 0x0200 [0xC9, 0x01] [])
    (fun t => registerView t.flags == 0xA0 && t.pc == 0x0202 && t.cycles == 2) = true := by decide

/-- CP4 (R212): CMP abs,Y crossing: 5 ticks, C=0, N=1. -/
theorem test_CP4_cmpAbsY : runs (start 0x10 0x00 0x01 0xFD 0x20 0x0200 [0xD9, 0xFF, 0x20] [(0x2100, 0x20)])
    (fun t => registerView t.flags == 0xA0 && t.pc == 0x0203 && t.cycles == 5) = true := by decide

/-- CP5 (R213): CPX: t=FB, C=0, N=1 (register - operand, 90_conflicts.md C2). -/
theorem test_CP5_cpxImm : runs (start 0x00 0x05 0x00 0xFD 0x20 0x0200 [0xE0, 0x0A] [])
    (fun t => registerView t.flags == 0xA0 && t.pc == 0x0202 && t.cycles == 2) = true := by decide

/-- CP6 (R213): CPX zp: C=1, N=1. -/
theorem test_CP6_cpxZp : runs (start 0x00 0xFF 0x00 0xFD 0x20 0x0200 [0xE4, 0x10] [(0x0010, 0x00)])
    (fun t => registerView t.flags == 0xA1 && t.pc == 0x0202 && t.cycles == 3) = true := by decide

/-- CP7 (R214): CPY: C=1. -/
theorem test_CP7_cpyImm : runs (start 0x00 0x00 0x10 0xFD 0x20 0x0200 [0xC0, 0x01] [])
    (fun t => registerView t.flags == 0x21 && t.pc == 0x0202 && t.cycles == 2) = true := by decide

/-- CP8 (R214): CPY abs equal: Z=1, C=1. -/
theorem test_CP8_cpyAbs : runs (start 0x00 0x00 0x22 0xFD 0x20 0x0200 [0xCC, 0x00, 0x30] [(0x3000, 0x22)])
    (fun t => registerView t.flags == 0x23 && t.pc == 0x0203 && t.cycles == 4) = true := by decide

/-- E6a (R233, R356): same page: 3 ticks. -/
theorem test_E6a_beq : runs (start 0x00 0x00 0x00 0xFD 0x22 0x0200 [0xF0, 0x10] [])
    (fun t => registerView t.flags == 0x22 && t.pc == 0x0212 && t.cycles == 3) = true := by decide

/-- E6c (R233, R356): not taken: 2 ticks. -/
theorem test_E6c_beq : runs (start 0x00 0x00 0x00 0xFD 0x20 0x0200 [0xF0, 0x10] [])
    (fun t => registerView t.flags == 0x20 && t.pc == 0x0202 && t.cycles == 2) = true := by decide

/-- BR1a (R231): BCC taken: 3 ticks. -/
theorem test_BR1a_bcc : runs (start 0x00 0x00 0x00 0xFD 0x20 0x0300 [0x90, 0x10] [])
    (fun t => registerView t.flags == 0x20 && t.pc == 0x0312 && t.cycles == 3) = true := by decide

/-- BR1b (R231): BCC not taken: 2 ticks. -/
theorem test_BR1b_bcc : runs (start 0x00 0x00 0x00 0xFD 0x21 0x0300 [0x90, 0x10] [])
    (fun t => registerView t.flags == 0x21 && t.pc == 0x0302 && t.cycles == 2) = true := by decide

/-- BR2a (R232): BCS taken: 3 ticks. -/
theorem test_BR2a_bcs : runs (start 0x00 0x00 0x00 0xFD 0x21 0x0300 [0xB0, 0x10] [])
    (fun t => registerView t.flags == 0x21 && t.pc == 0x0312 && t.cycles == 3) = true := by decide

/-- BR2b (R232): BCS not taken: 2 ticks. -/
theorem test_BR2b_bcs : runs (start 0x00 0x00 0x00 0xFD 0x20 0x0300 [0xB0, 0x10] [])
    (fun t => registerView t.flags == 0x20 && t.pc == 0x0302 && t.cycles == 2) = true := by decide

/-- BR5a (R235): BPL taken: 3 ticks. -/
theorem test_BR5a_bpl : runs (start 0x00 0x00 0x00 0xFD 0x20 0x0300 [0x10, 0x10] [])
    (fun t => registerView t.flags == 0x20 && t.pc == 0x0312 && t.cycles == 3) = true := by decide

/-- BR5b (R235): BPL not taken: 2 ticks. -/
theorem test_BR5b_bpl : runs (start 0x00 0x00 0x00 0xFD 0xA0 0x0300 [0x10, 0x10] [])
    (fun t => registerView t.flags == 0xA0 && t.pc == 0x0302 && t.cycles == 2) = true := by decide

/-- BR6a (R236): BMI taken: 3 ticks. -/
theorem test_BR6a_bmi : runs (start 0x00 0x00 0x00 0xFD 0xA0 0x0300 [0x30, 0x10] [])
    (fun t => registerView t.flags == 0xA0 && t.pc == 0x0312 && t.cycles == 3) = true := by decide

/-- BR6b (R236): BMI not taken: 2 ticks. -/
theorem test_BR6b_bmi : runs (start 0x00 0x00 0x00 0xFD 0x20 0x0300 [0x30, 0x10] [])
    (fun t => registerView t.flags == 0x20 && t.pc == 0x0302 && t.cycles == 2) = true := by decide

/-- BR7a (R237): BVC taken: 3 ticks. -/
theorem test_BR7a_bvc : runs (start 0x00 0x00 0x00 0xFD 0x20 0x0300 [0x50, 0x10] [])
    (fun t => registerView t.flags == 0x20 && t.pc == 0x0312 && t.cycles == 3) = true := by decide

/-- BR7b (R237): BVC not taken: 2 ticks. -/
theorem test_BR7b_bvc : runs (start 0x00 0x00 0x00 0xFD 0x60 0x0300 [0x50, 0x10] [])
    (fun t => registerView t.flags == 0x60 && t.pc == 0x0302 && t.cycles == 2) = true := by decide

/-- BR8b (R238): BVS not taken: 2 ticks. -/
theorem test_BR8b_bvs : runs (start 0x00 0x00 0x00 0xFD 0x20 0x0300 [0x70, 0x10] [])
    (fun t => registerView t.flags == 0x20 && t.pc == 0x0302 && t.cycles == 2) = true := by decide

/-- BR9 (R230, R356): BVS to itself. -/
theorem test_BR9_bvs : runs (start 0x00 0x00 0x00 0xFD 0x60 0x0300 [0x70, 0xFE] [])
    (fun t => registerView t.flags == 0x60 && t.pc == 0x0300 && t.cycles == 3) = true := by decide

/-- BR10 (R230, R356): BNE 03F2+0E = 0400: crossed, 4 ticks. -/
theorem test_BR10_bne : runs (start 0x00 0x00 0x00 0xFD 0x20 0x03F0 [0xD0, 0x0E] [])
    (fun t => registerView t.flags == 0x20 && t.pc == 0x0400 && t.cycles == 4) = true := by decide

/-- JP1 (R240): JMP abs: 3 ticks. -/
theorem test_JP1_jmpAbs : runs (start 0x00 0x00 0x00 0xFD 0x20 0x0200 [0x4C, 0x34, 0x12] [])
    (fun t => registerView t.flags == 0x20 && t.pc == 0x1234 && t.cycles == 3) = true := by decide

/-- JP3 (R241): JSR with SP=00: writes 0100 then 01FF. -/
theorem test_JP3_jsr : runs (start 0x00 0x00 0x00 0x00 0x20 0x0200 [0x20, 0x00, 0x40] [])
    (fun t => t.sp == 0xFE && registerView t.flags == 0x20 && t.pc == 0x4000 && t.cycles == 6 &&
      eventsOf t == [.read 0x0200 0x20, .read 0x0201 0x00, .read 0x0202 0x40, .write 0x0100 0x02, .write 0x01FF 0x02]) = true := by decide

/-- JP4 (R242): RTS of FFFF returns to 0000. -/
theorem test_JP4_rts : runs (start 0x00 0x00 0x00 0xFB 0x20 0x0300 [0x60] [(0x01FC, 0xFF), (0x01FD, 0xFF)])
    (fun t => t.sp == 0xFD && registerView t.flags == 0x20 && t.pc == 0x0000 && t.cycles == 6) = true := by decide

/-- JP5 (R243): RTI: P=A3, PC=1234, no +1. -/
theorem test_JP5_rti : runs (start 0x00 0x00 0x00 0xFA 0x20 0x0300 [0x40] [(0x01FB, 0xA3), (0x01FC, 0x34), (0x01FD, 0x12)])
    (fun t => t.sp == 0xFD && registerView t.flags == 0xA3 && t.pc == 0x1234 && t.cycles == 6) = true := by decide

/-- JP6 (R243): RTI restores I=0 (pulled 30: bits 5, 4 discarded). -/
theorem test_JP6_rti : runs (start 0x00 0x00 0x00 0xFA 0x24 0x0300 [0x40] [(0x01FB, 0x30), (0x01FC, 0x00), (0x01FD, 0x05)])
    (fun t => t.sp == 0xFD && registerView t.flags == 0x20 && t.pc == 0x0500 && t.cycles == 6) = true := by decide

/-- FL1 (R261). -/
theorem test_FL1_clc : runs (start 0x00 0x00 0x00 0xFD 0x21 0x0200 [0x18] [])
    (fun t => registerView t.flags == 0x20 && t.pc == 0x0201 && t.cycles == 2) = true := by decide

/-- FL2 (R262). -/
theorem test_FL2_sec : runs (start 0x00 0x00 0x00 0xFD 0x20 0x0200 [0x38] [])
    (fun t => registerView t.flags == 0x21 && t.pc == 0x0201 && t.cycles == 2) = true := by decide

/-- FL3 (R263). -/
theorem test_FL3_cli : runs (start 0x00 0x00 0x00 0xFD 0x24 0x0200 [0x58] [])
    (fun t => registerView t.flags == 0x20 && t.pc == 0x0201 && t.cycles == 2) = true := by decide

/-- FL4 (R264). -/
theorem test_FL4_sei : runs (start 0x00 0x00 0x00 0xFD 0x20 0x0200 [0x78] [])
    (fun t => registerView t.flags == 0x24 && t.pc == 0x0201 && t.cycles == 2) = true := by decide

/-- FL5 (R265). -/
theorem test_FL5_cld : runs (start 0x00 0x00 0x00 0xFD 0x28 0x0200 [0xD8] [])
    (fun t => registerView t.flags == 0x20 && t.pc == 0x0201 && t.cycles == 2) = true := by decide

/-- FL6 (R266). -/
theorem test_FL6_sed : runs (start 0x00 0x00 0x00 0xFD 0x20 0x0200 [0xF8] [])
    (fun t => registerView t.flags == 0x28 && t.pc == 0x0201 && t.cycles == 2) = true := by decide

/-- FL7 (R267). -/
theorem test_FL7_clv : runs (start 0x00 0x00 0x00 0xFD 0x60 0x0200 [0xB8] [])
    (fun t => registerView t.flags == 0x20 && t.pc == 0x0201 && t.cycles == 2) = true := by decide

/-- FL8 (R268): NOP: nothing but PC and 2 ticks. -/
theorem test_FL8_nop : runs (start 0x12 0x00 0x00 0xFD 0xE3 0x0400 [0xEA] [])
    (fun t => registerView t.flags == 0xE3 && t.pc == 0x0401 && t.cycles == 2) = true := by decide

/-- FL9 (R269): BRK: pushes 03, 02, 30; byte 0301 is not read. -/
theorem test_FL9_brk : runs (start 0x00 0x00 0x00 0xFD 0x20 0x0300 [0x00] [(0xFFFE, 0x00), (0xFFFF, 0x80)])
    (fun t => t.sp == 0xFA && registerView t.flags == 0x24 && t.pc == 0x8000 && t.cycles == 7 &&
      eventsOf t == [.read 0x0300 0x00, .write 0x01FD 0x03, .write 0x01FC 0x02, .write 0x01FB 0x30, .read 0xFFFE 0x00, .read 0xFFFF 0x80]) = true := by decide

/-- FL10 (R269): BRK with I=1 is still taken; pushed byte F7 (B=1, U=1); D unchanged. -/
theorem test_FL10_brk : runs (start 0x00 0x00 0x00 0xFD 0xE7 0x0300 [0x00] [(0xFFFE, 0x00), (0xFFFF, 0x80)])
    (fun t => t.sp == 0xFA && registerView t.flags == 0xE7 && t.pc == 0x8000 && t.cycles == 7 &&
      eventsOf t == [.read 0x0300 0x00, .write 0x01FD 0x03, .write 0x01FC 0x02, .write 0x01FB 0xF7, .read 0xFFFE 0x00, .read 0xFFFF 0x80]) = true := by decide

/-- AR11 (R183): BCD 15+27 = 42. -/
theorem test_AR11_adcImm : runs (decimal .nmosBcd (start 0x15 0x00 0x00 0xFD 0x28 0x0200 [0x69, 0x27] []))
    (fun t => t.a == 0x42 && registerView t.flags == 0x28 && t.pc == 0x0202 && t.cycles == 2) = true := by decide

/-- AR12 (R183): BCD 99+01 = 00, C=1; Z from binary 9A is 0. -/
theorem test_AR12_adcImm : runs (decimal .nmosBcd (start 0x99 0x00 0x00 0xFD 0x28 0x0200 [0x69, 0x01] []))
    (fun t => t.a == 0x00 && registerView t.flags == 0xA9 && t.pc == 0x0202 && t.cycles == 2) = true := by decide

/-- AR13 (R183): BCD 42-15 = 27, C=1. -/
theorem test_AR13_sbcImm : runs (decimal .nmosBcd (start 0x42 0x00 0x00 0xFD 0x29 0x0200 [0xE9, 0x15] []))
    (fun t => t.a == 0x27 && registerView t.flags == 0x29 && t.pc == 0x0202 && t.cycles == 2) = true := by decide

/-- AR14 (R183): BCD 00-01 = 99, C=0. -/
theorem test_AR14_sbcImm : runs (decimal .nmosBcd (start 0x00 0x00 0x00 0xFD 0x29 0x0200 [0xE9, 0x01] []))
    (fun t => t.a == 0x99 && registerView t.flags == 0xA8 && t.pc == 0x0202 && t.cycles == 2) = true := by decide

/-- AR16 (R182, R302): D=0 under Refuse: ordinary binary ADC. -/
theorem test_AR16_adcImm : runs (decimal .refuse (start 0x10 0x00 0x00 0xFD 0x20 0x0200 [0x69, 0x01] []))
    (fun t => t.a == 0x11 && registerView t.flags == 0x20 && t.pc == 0x0202 && t.cycles == 2) = true := by decide

/-- IN1 (R312, R313): IRQ with I=0: taken, NOP not executed; pushed P has B=1. -/
theorem test_IN1 : runs ((start 0x00 0x00 0x00 0xFD 0x20 0x0400 [0xEA] [(0xFFFE, 0x00), (0xFFFF, 0x90)]).setIrqLine true)
    (fun t => t.sp == 0xFA && registerView t.flags == 0x24 && t.pc == 0x9000 && t.cycles == 7 &&
      eventsOf t == [.write 0x01FD 0x04, .write 0x01FC 0x00, .write 0x01FB 0x30, .read 0xFFFE 0x00, .read 0xFFFF 0x90]) = true := by decide

/-- IN2 (R312): IRQ masked by I=1: NOP runs. -/
theorem test_IN2 : runs ((start 0x00 0x00 0x00 0xFD 0x24 0x0400 [0xEA] [(0xFFFE, 0x00), (0xFFFF, 0x90)]).setIrqLine true)
    (fun t => registerView t.flags == 0x24 && t.pc == 0x0401 && t.cycles == 2 && eventsOf t == [.read 0x0400 0xEA]) = true := by decide

/-- IN3 (R312, R313): NMI ignores I; pushed P has B=0; latch cleared. -/
theorem test_IN3 : runs ((start 0x00 0x00 0x00 0xFD 0x24 0x0400 [0xEA] [(0xFFFA, 0x00), (0xFFFB, 0xA0)]).setNmiPending true)
    (fun t => t.sp == 0xFA && registerView t.flags == 0x24 && t.pc == 0xA000 && t.cycles == 7 &&
      eventsOf t == [.write 0x01FD 0x04, .write 0x01FC 0x00, .write 0x01FB 0x24, .read 0xFFFA 0x00, .read 0xFFFB 0xA0]) = true := by decide

/-- IN4 (R312): NMI wins over IRQ. -/
theorem test_IN4 : runs (((start 0x00 0x00 0x00 0xFD 0x20 0x0400 [0xEA] [(0xFFFA, 0x00), (0xFFFB, 0xA0), (0xFFFE, 0x00), (0xFFFF, 0x90)]).setNmiPending true).setIrqLine true)
    (fun t => t.sp == 0xFA && registerView t.flags == 0x24 && t.pc == 0xA000 && t.cycles == 7 &&
      eventsOf t == [.write 0x01FD 0x04, .write 0x01FC 0x00, .write 0x01FB 0x20, .read 0xFFFA 0x00, .read 0xFFFB 0xA0]) = true := by decide

/-- IN5 (R312, R340): Reset wins; clears nmi_pending; irq_line kept. -/
theorem test_IN5 : runs ((((start 0x11 0x22 0x33 0x10 0xEF 0x0400 [0xEA] [(0xFFFC, 0x00), (0xFFFD, 0xC0)]).setResetPending true).setNmiPending true).setIrqLine true)
    (fun t => t.a == 0x00 && t.x == 0x00 && t.y == 0x00 && t.sp == 0xFD && registerView t.flags == 0x24 && t.pc == 0xC000 &&
      t.cycles == 7 && eventsOf t == [.read 0xFFFC 0x00, .read 0xFFFD 0xC0]) = true := by decide

/-- RS1 (R340, R342): power-on Step: Reset sequence only. -/
theorem test_RS1 : runs ((start 0x00 0x00 0x00 0xFD 0x20 0x0000 [] [(0xFFFC, 0x34), (0xFFFD, 0x12)]).setResetPending true)
    (fun t => registerView t.flags == 0x24 && t.pc == 0x1234 && t.cycles == 7 &&
      eventsOf t == [.read 0xFFFC 0x34, .read 0xFFFD 0x12]) = true := by decide


/-! ## Errors, the host's actions, and places where a wrap or an order shows -/

/-- The state a fault or a refusal leaves, if its error is as expected and it passes a check. -/
def stops (s : State) (e : StepError) (check : State → Bool) : Bool :=
  let q := settle s (step s)
  decide (q.1 = .error e ∨ q.1 = .refused e) && check q.2

/-- IN7 (R300): undefined 02: error, PC=0401, one tick, Faulted, one read. -/
theorem test_IN7_undefined : stops (start 0 0 0 0xFD 0x20 0x0400 [0x02] []) (.unimplementedOpcode 0x02 0x0400)
    (fun t => t.pc == 0x0401 && t.cycles == 1 && eventsOf t == [.read 0x0400 0x02] && registerView t.flags == 0x20) = true := by decide

/-- IN8 (R304): the next Step returns the same error with no event and no tick. -/
theorem test_IN8_faulted_again :
    stops ((start 0 0 0 0xFD 0x20 0x0401 [] []).setFsm (.faulted (.unimplementedOpcode 0x02 0x0400)))
      (.unimplementedOpcode 0x02 0x0400) (fun t => t.pc == 0x0401 && t.cycles == 0 && eventsOf t == []) = true := by decide

/-- RS2 (R304, R340): a Reset requested in Faulted leaves it. -/
theorem test_RS2_reset_leaves_faulted :
    runs (((start 0 0 0 0xFD 0x20 0x0401 [] [(0xFFFD, 0xC0)]).setFsm (.faulted .decimalUnmodelled)).setResetPending true)
      (fun t => t.fsm == .running && t.pc == 0xC000 && registerView t.flags == 0x24 && t.cycles == 7) = true := by decide

/-- AR15 (R182, R302): ADC with D = 1 under Refuse: PC past the opcode only, one tick, A as it was. -/
theorem test_AR15_adc_refused : stops (decimal .refuse (start 0x10 0 0 0xFD 0x28 0x0200 [0x69, 0x01] [])) .decimalUnmodelled
    (fun t => t.a == 0x10 && t.pc == 0x0201 && t.cycles == 1 && eventsOf t == [.read 0x0200 0x69]) = true := by decide

/-- IN9 (R302): SBC with D = 1 under Refuse. -/
theorem test_IN9_sbc_refused : stops (decimal .refuse (start 0 0 0 0xFD 0x28 0x0400 [0xE9, 0x01] [])) .decimalUnmodelled
    (fun t => t.pc == 0x0401 && t.cycles == 1 && t.fsm == .faulted .decimalUnmodelled) = true := by decide

/-- R22: an instruction at 0xFFFF has its operand byte at 0x0000. -/
theorem test_fetch_wraps : runs (start 0 0 0 0xFD 0x20 0xFFFF [0xA9, 0x55] [])
    (fun t => t.a == 0x55 && t.pc == 0x0001 && eventsOf t == [.read 0xFFFF 0xA9, .read 0x0000 0x55]) = true := by decide

/-- R63: STA $0200 at 0x0200 runs with the bytes fetched before its write, and the write stands. -/
theorem test_self_modifying_store : runs (start 0xEA 0 0 0xFD 0x20 0x0200 [0x8D, 0x00, 0x02] [])
    (fun t => t.peek 0x0200 == 0xEA && t.pc == 0x0203) = true := by decide

/-- R311: `signalNMI()` twice is one latched request, and `setIRQ(0)` lowers the line. -/
theorem test_host_requests :
    (hostRun [.signalNMI, .signalNMI, .setIRQ true, .setIRQ false, .assertReset] (start 0 0 0 0xFD 0x20 0 [] [])).2 =
      ((start 0 0 0 0xFD 0x20 0 [] []).setNmiPending true).setResetPending true := by decide

/-- R82: the program of a behaviour makes its accesses in order, sees what it reads, and leaves its registers and ticks. -/
theorem test_alias_program :
    (let t := runAlias (.read 0x0010 (fun b => .write 0x0011 b (.done ⟨b, 0, 0, 0xFD, 0x0202, resetFlags⟩ 3)))
      (start 0 0 0 0xFD 0x20 0x0201 [] [(0x0010, 0x77)])
    t.a == 0x77 && t.peek 0x0011 == 0x77 && t.pc == 0x0202 && t.cycles == 3 &&
      eventsOf t == [.read 0x0010 0x77, .write 0x0011 0x77]) = true := by decide

/-- R83, R302: a decimal behaviour that would write is refused before its first access, with one tick. -/
theorem test_alias_refused :
    (let s := decimal .refuse (start 0 0 0 0xFD 0x28 0x0201 [] [])
     let q := settle s (runBehaviour ⟨true, fun r => .write 0x0010 0x77 (.done r 5)⟩ s)
     q.1 == .refused .decimalUnmodelled && eventsOf q.2 == [] && q.2.peek 0x0010 == 0x00 && q.2.pc == 0x0201 &&
       q.2.cycles == 1) = true := by decide

/-- The host's probe: a word stored where the reset state fetches is the instruction its next Step runs. -/
theorem test_withFetchWord : runs (State.reset.withFetchWord 16 0x80A9) (fun t => t.a == 0x80 && t.pc == 0x0002) = true := by decide

/-- Memory keeps its canonical form: writing what an unlisted address reads as removes the entry. -/
theorem test_memory_canonical : Memory.write (Memory.write [] 0x0200 0x41) 0x0200 0x00 = [] ∧
    Memory.wf (Memory.write (Memory.write [] 0x0200 0x41) 0x0100 0x42) = true ∧ Memory.wf [(0x0200, 0x41), (0x0100, 0x42)] = false := by
  decide

/-- R85: the source's own examples, and one of each further form. -/
theorem test_assembler_text : textOf (.ldaImm 0x00) = "LDA #$00".toList ∧ textOf (.beq 0x02) = "BEQ +2".toList ∧
    textOf (.jsr 0x1234) = "JSR $1234".toList ∧ textOf (.staIndY 0xFE) = "STA ($FE),Y".toList ∧
    textOf (.jmpInd 0x30FF) = "JMP ($30FF)".toList ∧ textOf .aslA = "ASL A".toList ∧ textOf (.bne 0xF8) = "BNE -8".toList := by
  refine ⟨by decide, by decide, by decide, by decide, by decide, by decide, by decide⟩

/-- R85, and the loop of program P2: BNE $0204 at 0x020A is D0 F8; a target 128 bytes on is out of reach. -/
theorem test_branch_displacement : branchDisplacement 0x020A 0x0204 = some 0xF8 ∧ branchDisplacement 0x0200 0x0282 = none := by
  decide

/-! ## A witness for the hypotheses of each obligation that has any -/

/-- LDA #$05 at 0x0200, with A = 0x12, X = 0x34, Y = 0x56. -/
def ready : State := start 0x12 0x34 0x56 0xFD 0x20 0x0200 [0xA9, 0x05] []

theorem ready_executes : ready.executes := ⟨rfl, rfl, rfl, Or.inl rfl⟩

theorem ready_wf : Memory.wf ready.mem = true := by decide

/-- A case of the hypothesis `exec i s = .next t` of the whole-machine statements. -/
theorem ready_nop : ∃ t, exec .nop ready = .next t := ⟨_, rfl⟩

theorem witness_DecodeInvertsEncode : (Instr.staAbs 0xFFFF).wf = true ∧ (Instr.brk).wf = true := ⟨rfl, rfl⟩

theorem witness_EncodeInvertsDecode : decode [0x8D, 0xFF, 0xFF, 0x00] = .ok (.staAbs 0xFFFF, [0x00]) := by decide

theorem witness_StepRunsTheDecodedInstruction :
    ready.executes ∧ decode (fetchBytes ready) = .ok (.ldaImm 0x05, [0x00]) := ⟨ready_executes, by decide⟩

/-- The other way to execute: an IRQ line held high and masked. -/
theorem witness_StepRunsTheDecodedInstruction_masked :
    ((start 0 0 0 0xFD 0x24 0xFFFF [0xEA] []).setIrqLine true).executes ∧
    decode (fetchBytes ((start 0 0 0 0xFD 0x24 0xFFFF [0xEA] []).setIrqLine true)) = .ok (.nop, [0x00, 0x00]) :=
  ⟨⟨rfl, rfl, rfl, Or.inr rfl⟩, by decide⟩

theorem witness_StoredInstructionRunsNext :
    Memory.wf (ready.setPC 0xFFFF).mem = true ∧ decodeTableWord 24 0x02008D = some (.staAbs 0x0200) :=
  ⟨by decide, by decide⟩

theorem witness_ResetSequenceSetsEveryState : (ready.setResetPending true).resetPending = true := rfl

theorem witness_ZeroPageModesStayInTheZeroPage :
    (Instr.ldxZpY 0xFF).form.mode = .zeroPageY ∧ (Instr.stxZpY 0x00).form.mode = .zeroPageY := ⟨rfl, rfl⟩

/-- At SP = 0x00, where a push wraps. -/
theorem witness_PushAndPullWrapInTheStackPage :
    Memory.wf (ready.setSP 0x00).mem = true ∧ isIo (ready.setSP 0x00).cfg (stackAddr (ready.setSP 0x00).sp) = false :=
  ⟨by decide, rfl⟩

/-- Two bytes that differ in bits 5 and 4 alone. -/
theorem witness_StatusByteHasItsLayout : (0xFF : Byte) &&& 0xCF = 0xCF &&& 0xCF := by decide

theorem witness_LoadsWriteTheirRegister : (Instr.ldaIndY 0xFF).mnemonic = .lda ∧ (Instr.ldxZpY 0x00).mnemonic = .ldx ∧
    (Instr.ldyAbsX 0xFFFF).mnemonic = .ldy := ⟨rfl, rfl, rfl⟩

theorem witness_StoresWriteTheEffectiveAddress : (Instr.staAbsX 0xFFFF).mnemonic = .sta ∧ (Instr.stxZpY 0xFF).mnemonic = .stx ∧
    (Instr.styAbs 0x0000).mnemonic = .sty ∧ Memory.wf ready.mem = true ∧ isIo ready.cfg 0x0033 = false :=
  ⟨rfl, rfl, rfl, ready_wf, rfl⟩

theorem witness_PushInstructionsStoreOneStackByte : (Instr.pha = .pha ∨ Instr.pha = .php) ∧ (Instr.php = .pha ∨ Instr.php = .php) ∧
    Memory.wf ready.mem = true ∧ isIo ready.cfg (stackAddr ready.sp) = false := ⟨.inl rfl, .inr rfl, ready_wf, rfl⟩

theorem witness_PushThenPullRestoresAAndSP :
    Memory.wf ready.mem = true ∧ isIo ready.cfg (stackAddr ready.sp) = false := ⟨ready_wf, rfl⟩

/-- Under `Binary` with D = 1, and under `Refuse` with D = 0. -/
theorem witness_AdcAddsInBinary : (Instr.adcIndX 0xFF).mnemonic = .adc ∧ ready.cfg.decimalMode = .binary ∧
    (decimal .refuse ready).flags.d = false := ⟨rfl, rfl, by decide⟩

theorem witness_SbcSubtractsInBinary : (Instr.sbcAbsY 0xFFFF).mnemonic = .sbc ∧ ready.cfg.decimalMode = .binary ∧
    (decimal .refuse ready).flags.d = false := ⟨rfl, rfl, by decide⟩

/-- On the operands 99 and 99, and the carry set. -/
theorem witness_AdcAddsDecimalDigits :
    let s := decimal .nmosBcd (start 0x99 0 0 0xFD 0x29 0x0200 [] [])
    (Instr.adcImm 0x99).mnemonic = .adc ∧ s.cfg.decimalMode = .nmosBcd ∧ s.flags.d = true ∧ isBcd s.a ∧
      isBcd (operandByte (Instr.adcImm 0x99).form s) := by
  refine ⟨rfl, rfl, by decide, ?_, ?_⟩ <;> exact ⟨by decide, by decide⟩

/-- On the operands 00 and 99, and the carry clear. -/
theorem witness_SbcSubtractsDecimalDigits :
    let s := decimal .nmosBcd (start 0x00 0 0 0xFD 0x28 0x0200 [] [])
    (Instr.sbcImm 0x99).mnemonic = .sbc ∧ s.cfg.decimalMode = .nmosBcd ∧ s.flags.d = true ∧ isBcd s.a ∧
      isBcd (operandByte (Instr.sbcImm 0x99).form s) := by
  refine ⟨rfl, rfl, by decide, ?_, ?_⟩ <;> exact ⟨by decide, by decide⟩

theorem witness_DecimalArithmeticIsRefused :
    let s := decimal .refuse (start 0x10 0 0 0xFD 0x28 0x0200 [] [])
    (Instr.adcImm 0x01).mnemonic = .adc ∧ (Instr.sbcIndY 0xFF).mnemonic = .sbc ∧ s.cfg.decimalMode = .refuse ∧ s.flags.d = true :=
  ⟨rfl, rfl, rfl, by decide⟩

theorem witness_DecimalFlagHasNoEffectUnderBinary : (Instr.adcZp 0x00).mnemonic = .adc ∧ (Instr.sbcZp 0xFF).mnemonic = .sbc ∧
    ready.cfg.decimalMode = .binary := ⟨rfl, rfl, rfl⟩

theorem witness_LogicCombinesAWithTheOperand : (Instr.andImm 0xFF).mnemonic = .and ∧ (Instr.oraImm 0x00).mnemonic = .ora ∧
    (Instr.eorImm 0xFF).mnemonic = .eor := ⟨rfl, rfl, rfl⟩

theorem witness_BitTestsTheOperand : (Instr.bitZp 0x00).mnemonic = .bit ∧ (Instr.bitAbs 0xFFFF).mnemonic = .bit := ⟨rfl, rfl⟩

theorem witness_ComparesSetCarryZeroNegative : (Instr.cmpImm 0xFF).mnemonic = .cmp ∧ (Instr.cpxImm 0x00).mnemonic = .cpx ∧
    (Instr.cpyAbs 0xFFFF).mnemonic = .cpy := ⟨rfl, rfl, rfl⟩

theorem witness_ShiftsOfTheAccumulator : ∀ i ∈ [Instr.aslA, .lsrA, .rolA, .rorA], i = .aslA ∨ i = .lsrA ∨ i = .rolA ∨ i = .rorA := by
  decide

theorem witness_ShiftsOfMemory : (Instr.aslZp 0x10).mnemonic = .asl ∧ (Instr.aslZp 0x10).form ≠ .implied ∧
    (Instr.lsrAbs 0xFFFF).mnemonic = .lsr ∧ (Instr.lsrAbs 0xFFFF).form ≠ .implied ∧
    (Instr.rolZpX 0xFF).mnemonic = .rol ∧ (Instr.rolZpX 0xFF).form ≠ .implied ∧
    (Instr.rorAbsX 0x30FF).mnemonic = .ror ∧ (Instr.rorAbsX 0x30FF).form ≠ .implied ∧
    Memory.wf ready.mem = true ∧ isIo ready.cfg 0x0010 = false := by
  refine ⟨rfl, ?_, rfl, ?_, rfl, ?_, rfl, ?_, ready_wf, rfl⟩ <;> decide

theorem witness_IncrementAndDecrementMemory : (Instr.incAbsX 0xFFFF).mnemonic = .inc ∧ (Instr.decZp 0x00).mnemonic = .dec ∧
    Memory.wf ready.mem = true ∧ isIo ready.cfg 0x0000 = false := ⟨rfl, rfl, ready_wf, rfl⟩

theorem witness_IncrementAndDecrementIndex : ∀ i ∈ [Instr.inx, .dex, .iny, .dey], i = .inx ∨ i = .dex ∨ i = .iny ∨ i = .dey := by
  decide

/-- A branch taken at the end of the address space, and one not taken. -/
theorem witness_BranchesTestTheirFlag : isBranch (Instr.bne 0x7F).mnemonic = true ∧
    branchTaken (Instr.bne 0x7F).mnemonic (ready.setPC 0xFFFF).flags = true ∧
    isBranch (Instr.bcs 0x80).mnemonic = true ∧ branchTaken (Instr.bcs 0x80).mnemonic ready.flags = false := by
  refine ⟨rfl, by decide, rfl, by decide⟩

/-- The pointers 0x30FF and 0xFFFF, whose high bytes stand at 0x3000 and 0xFF00. -/
theorem witness_JumpsSetPC :
    ((0x3000 : Word).toNat = (0x30FF : Word).toNat / 256 * 256 + ((0x30FF : Word).toNat + 1) % 256) ∧
    ((0xFF00 : Word).toNat = (0xFFFF : Word).toNat / 256 * 256 + ((0xFFFF : Word).toNat + 1) % 256) ∧
    isIo ready.cfg 0x30FF = false ∧ isIo ready.cfg 0x3000 = false := ⟨by decide, by decide, rfl, rfl⟩

/-- At SP = 0x00, where the second push wraps. -/
theorem witness_JsrPushesItsLastAddress :
    Memory.wf (ready.setSP 0x00).mem = true ∧ isIo (ready.setSP 0x00).cfg (stackAddr (ready.setSP 0x00).sp) = false ∧
    isIo (ready.setSP 0x00).cfg (stackAddr ((ready.setSP 0x00).sp - 1)) = false := ⟨by decide, rfl, rfl⟩

theorem witness_ReturnFollowsCall : Memory.wf ready.mem = true ∧ isIo ready.cfg (stackAddr ready.sp) = false ∧
    isIo ready.cfg (stackAddr (ready.sp - 1)) = false := ⟨ready_wf, rfl, rfl⟩

theorem witness_FlagOperationsWriteOneFlag : ∀ i ∈ [Instr.clc, .sec, .cli, .sei, .cld, .sed, .clv, .nop],
    i = .clc ∨ i = .sec ∨ i = .cli ∨ i = .sei ∨ i = .cld ∨ i = .sed ∨ i = .clv ∨ i = .nop := by decide

theorem witness_BrkTakesTheInterrupt : isIo ready.cfg 0xFFFE = false ∧ isIo ready.cfg 0xFFFF = false := ⟨rfl, rfl⟩

/-- With I set and the IRQ line high. -/
theorem witness_NmiIsTakenAtTheBoundary :
    let s := ((start 0 0 0 0x01 0x24 0x0400 [0xEA] []).setNmiPending true).setIrqLine true
    s.fsm = .running ∧ s.resetPending = false ∧ s.nmiPending = true ∧ isIo s.cfg 0xFFFA = false ∧ isIo s.cfg 0xFFFB = false :=
  ⟨rfl, rfl, rfl, rfl, rfl⟩

theorem witness_IrqIsTakenWhenIIsClear :
    let s := ready.setIrqLine true
    s.fsm = .running ∧ s.resetPending = false ∧ s.nmiPending = false ∧ s.irqLine = true ∧ s.flags.i = false ∧
      isIo s.cfg 0xFFFE = false ∧ isIo s.cfg 0xFFFF = false := ⟨rfl, rfl, rfl, rfl, by decide, rfl, rfl⟩

/-- At SP = 0x01, where the third push wraps. -/
theorem witness_RtiUndoesAnInterruptEntry :
    let s := ready.setSP 0x01
    Memory.wf s.mem = true ∧ isIo s.cfg (stackAddr s.sp) = false ∧ isIo s.cfg (stackAddr (s.sp - 1)) = false ∧
      isIo s.cfg (stackAddr (s.sp - 2)) = false := ⟨by decide, rfl, rfl, rfl⟩

/-- The undefined byte 0xFF at 0xFFFF. -/
def undefinedAtTop : State := start 0 0 0 0xFD 0x20 0xFFFF [0xFF] []

theorem witness_UndefinedOpcodeFails : undefinedAtTop.executes ∧
    decode (fetchBytes undefinedAtTop) = .error (.undefinedOpcode 0xFF) ∧ undefinedAtTop.cfg.illegalPolicy = .fail :=
  ⟨⟨rfl, rfl, rfl, Or.inl rfl⟩, by decide, rfl⟩

/-- `undefinedAtTop` under an alias table. -/
def underTable (table : List (Byte × Nat)) : State :=
  { undefinedAtTop with cfg := { undefinedAtTop.cfg with illegalPolicy := .aliased table } }

theorem witness_UndefinedOpcodeFails_absent : (underTable [(0x02, 0)]).executes ∧
    decode (fetchBytes (underTable [(0x02, 0)])) = .error (.undefinedOpcode 0xFF) ∧
    (underTable [(0x02, 0)]).cfg.illegalPolicy = .aliased [(0x02, 0)] ∧ ∀ e ∈ [((0x02 : Byte), 0)], e.1 ≠ 0xFF :=
  ⟨⟨rfl, rfl, rfl, Or.inl rfl⟩, by decide, rfl, by decide⟩

theorem witness_FaultedStepsRepeatTheirOutcome :
    (ready.setFsm (.faulted .decimalUnmodelled)).fsm = .faulted .decimalUnmodelled ∧
    (ready.setFsm (.faulted .decimalUnmodelled)).resetPending = false := ⟨rfl, rfl⟩

theorem witness_AliasedOpcodeRunsItsBehaviour : (underTable [(0x02, 0), (0xFF, 7)]).executes ∧
    decode (fetchBytes (underTable [(0x02, 0), (0xFF, 7)])) = .error (.undefinedOpcode 0xFF) ∧
    (underTable [(0x02, 0), (0xFF, 7)]).cfg.illegalPolicy = .aliased [(0x02, 0), (0xFF, 7)] ∧
    (underTable [(0x02, 0), (0xFF, 7)]).cfg.wf = true ∧ ((0xFF : Byte), 7) ∈ [((0x02 : Byte), 0), (0xFF, 7)] :=
  ⟨⟨rfl, rfl, rfl, Or.inl rfl⟩, by decide, rfl, by decide, by decide⟩

/-- ADC with D = 0 under `Refuse`, and any instruction but ADC and SBC. -/
theorem witness_NothingElseIsAnError : ready.fsm = .running ∧ undefinedAtTop.fsm = .running ∧
    ¬((Instr.adcImm 0x01).mnemonic = .adc ∧ (decimal .refuse ready).cfg.decimalMode = .refuse ∧ (decimal .refuse ready).flags.d = true) ∧
    ¬((Instr.nop).mnemonic = .adc ∨ (Instr.nop).mnemonic = .sbc) := ⟨rfl, rfl, by decide, by decide⟩

theorem witness_FlagsHaveOnlyTheirWriters : (∃ t, exec .nop ready = .next t) ∧ writesC (Instr.nop).mnemonic = false ∧
    writesZN (Instr.nop).mnemonic = false ∧ writesI (Instr.nop).mnemonic = false ∧ writesD (Instr.nop).mnemonic = false ∧
    writesV (Instr.nop).mnemonic = false := ⟨ready_nop, by decide, by decide, by decide, by decide, by decide⟩

theorem witness_RegistersHaveOnlyTheirWriters : (∃ t, exec .nop ready = .next t) ∧ writesA .nop = false ∧ writesX .nop = false ∧
    writesY .nop = false ∧ writesSP .nop = false := ⟨ready_nop, by decide, by decide, by decide, by decide⟩

theorem witness_MemoryHasOnlyItsWriters : (∃ t, exec .nop ready = .next t) ∧ writesMemory .nop = false := ⟨ready_nop, by decide⟩

theorem witness_InstructionsMovePCPastTheirBytes : (∃ t, exec (.ldaAbsX 0x12FF) (ready.setPC 0xFFFF) = .next t) ∧
    setsPC (Instr.ldaAbsX 0x12FF).mnemonic = false := ⟨⟨_, rfl⟩, by decide⟩

/-- A read-class crossing, and a taken branch. -/
theorem witness_InstructionsChargeTheirTicks : (∃ t, exec (.ldaAbsX 0x12FF) ready = .next t) ∧
    (resolve (Instr.ldaAbsX 0x12FF).form ready).crossed = true ∧ (∃ t, exec (.bne 0x80) ready = .next t) ∧
    branchTaken (Instr.bne 0x80).mnemonic ready.flags = true := ⟨⟨_, rfl⟩, by decide, ⟨_, rfl⟩, by decide⟩

theorem witness_BusEventsAreExactlyTheNeededOnes : ∃ t, exec (.rorAbsX 0x30FF) ready = .next t := ⟨_, rfl⟩

theorem witness_StepKeepsTheInvariant : ready.Inv ∧ (∃ t, resultState (step ready) = some t) ∧ undefinedAtTop.Inv ∧
    ∃ t, resultState (step undefinedAtTop) = some t :=
  ⟨⟨by decide, by decide⟩, Option.isSome_iff_exists.mp (by decide), ⟨by decide, by decide⟩, Option.isSome_iff_exists.mp (by decide)⟩

theorem witness_StepKeepsMemoryCoherent :
    State.reset.Coherent [] ∧ ∃ t, resultState (step State.reset) = some t := by
  refine ⟨⟨by decide, ?_, fun addr _ => rfl⟩, Option.isSome_iff_exists.mp (by decide)⟩
  exact ⟨by decide, by decide, trivial⟩

end Sys2Proof.Tests
end

section
/-! PROOF. Registers and flags of every instruction (spec/10_state.md R21, R22, R29, R31): what the effect of each class of
instructions leaves alone, and from it the tables of writers and the movement of PC. -/

namespace Sys2Proof.Machine

/-! ## The flags an update may change -/

/-- From the flags `f` to the flags `g`, only those changed that R29's table lets the mnemonic `mn` write. -/
structure FlagsKept (mn : Mnemonic) (f g : Flags) : Prop where
  c : writesC mn = false → g.c = f.c
  zn : writesZN mn = false → g.z = f.z ∧ g.n = f.n
  i : writesI mn = false → g.i = f.i
  d : writesD mn = false → g.d = f.d
  v : writesV mn = false → g.v = f.v

namespace FlagsKept

variable {mn : Mnemonic}

theorem refl (f : Flags) : FlagsKept mn f f := ⟨fun _ => rfl, fun _ => ⟨rfl, rfl⟩, fun _ => rfl, fun _ => rfl, fun _ => rfl⟩

theorem of_eq {f g : Flags} (h : g = f) : FlagsKept mn f g := by
  rw [h]
  exact refl f

theorem trans {f g h : Flags} (hfg : FlagsKept mn f g) (hgh : FlagsKept mn g h) : FlagsKept mn f h where
  c hw := (hgh.c hw).trans (hfg.c hw)
  zn hw := ⟨(hgh.zn hw).1.trans (hfg.zn hw).1, (hgh.zn hw).2.trans (hfg.zn hw).2⟩
  i hw := (hgh.i hw).trans (hfg.i hw)
  d hw := (hgh.d hw).trans (hfg.d hw)
  v hw := (hgh.v hw).trans (hfg.v hw)

theorem setC (h : writesC mn = true) (f : Flags) (b : Bool) : FlagsKept mn f { f with c := b } :=
  { refl f with c := fun hw => false_class hw h }

theorem setI (h : writesI mn = true) (f : Flags) (b : Bool) : FlagsKept mn f { f with i := b } :=
  { refl f with i := fun hw => false_class hw h }

theorem setD (h : writesD mn = true) (f : Flags) (b : Bool) : FlagsKept mn f { f with d := b } :=
  { refl f with d := fun hw => false_class hw h }

theorem setV (h : writesV mn = true) (f : Flags) (b : Bool) : FlagsKept mn f { f with v := b } :=
  { refl f with v := fun hw => false_class hw h }

theorem ofSetZN (h : writesZN mn = true) (v : Byte) (f : Flags) : FlagsKept mn f (setZN v f) :=
  { refl f with zn := fun hw => false_class hw h }

theorem ofCompareFlags (hc : writesC mn = true) (hzn : writesZN mn = true) (r m : Byte) (f : Flags) :
    FlagsKept mn f (compareFlags r m f) :=
  { refl f with c := fun hw => false_class hw hc, zn := fun hw => false_class hw hzn }

theorem ofBitFlags (hzn : writesZN mn = true) (hv : writesV mn = true) (a m : Byte) (f : Flags) :
    FlagsKept mn f (bitFlags a m f) :=
  { refl f with zn := fun hw => false_class hw hzn, v := fun hw => false_class hw hv }

theorem ofAluFlags (hc : writesC mn = true) (hzn : writesZN mn = true) (hv : writesV mn = true) (q : AluResult) (f : Flags) :
    FlagsKept mn f (q.setFlags f) :=
  { refl f with c := fun hw => false_class hw hc, zn := fun hw => false_class hw hzn, v := fun hw => false_class hw hv }

/-- A mnemonic the table lists under every flag may leave any flags: PLP and RTI (R29). -/
theorem ofAllWriter (hc : writesC mn = true) (hzn : writesZN mn = true) (hi : writesI mn = true) (hd : writesD mn = true)
    (hv : writesV mn = true) (f g : Flags) : FlagsKept mn f g :=
  ⟨fun hw => false_class hw hc, fun hw => false_class hw hzn, fun hw => false_class hw hi, fun hw => false_class hw hd,
    fun hw => false_class hw hv⟩

end FlagsKept

theorem readEffect_flagsKept (mn : Mnemonic) (m : Byte) (s : State) : FlagsKept mn s.flags (readEffect mn m s).flags := by
  cases mn
  case lda | ldx | ldy | and | ora | eor => exact .ofSetZN rfl _ _
  case adc | sbc => exact .ofAluFlags rfl rfl rfl _ _
  case cmp | cpx | cpy => exact .ofCompareFlags rfl rfl _ _ _
  case bit => exact .ofBitFlags rfl rfl _ _ _
  all_goals exact .refl _

theorem modifyByte_flagsKept {mn : Mnemonic} (h : isModify mn = true) (v : Byte) (f : Flags) :
    FlagsKept mn f (modifyByte mn v f).flags := by
  cases mn
  case asl | lsr | rol | ror => exact (FlagsKept.setC rfl f _).trans (.ofSetZN rfl _ _)
  case inc | dec => exact .ofSetZN rfl _ _
  all_goals exact false_class rfl h

theorem plainEffect_flagsKept (i : Instr) (s : State) : FlagsKept i.mnemonic s.flags (plainEffect i s).flags := by
  cases i
  case tax | txa | tay | tya | tsx | inx | dex | iny | dey | pla => exact .ofSetZN rfl _ _
  case aslA | lsrA | rolA | rorA => exact modifyByte_flagsKept rfl _ _
  case clc | sec => exact .setC rfl _ _
  case cli | sei => exact .setI rfl _ _
  case cld | sed => exact .setD rfl _ _
  case clv => exact .setV rfl _ _
  case brk => rw [plainEffect_brk, softwareInterrupt, interruptSequence_flags]; exact .setI rfl _ _
  case plp | rti => exact .ofAllWriter rfl rfl rfl rfl rfl _ _
  case pha | php | rts => exact .of_eq (by simp)
  case jsr => exact .of_eq (by simp [callSubroutine])
  all_goals exact .refl _

/-- R29 for the meaning of every instruction. -/
theorem exec_flagsKept {i : Instr} {s t : State} (h : exec i s = .next t) : FlagsKept i.mnemonic s.flags t.flags := by
  rcases exec_next h with ⟨-, rfl⟩ | ⟨-, ea, -, rfl⟩ | ⟨hm, -, ea, -, rfl⟩ | ⟨-, d, -, rfl⟩ | ⟨w, rfl, rfl⟩ |
    ⟨p, rfl, rfl⟩ | ⟨-, rfl⟩
  · simpa using readEffect_flagsKept i.mnemonic (operandByte i.form s) (afterOperand i.form s)
  · exact .of_eq (by simp)
  · simpa using modifyByte_flagsKept hm (operandByte i.form s) s.flags
  · cases branchTaken i.mnemonic s.flags <;> exact .of_eq (by simp)
  · exact .of_eq (by simp)
  · exact .of_eq (by simp)
  · exact plainEffect_flagsKept i s

/-- Settles O51, from the flags each class of instructions leaves alone. -/
theorem flagsHaveOnlyTheirWriters : Obligations.FlagsHaveOnlyTheirWriters := by
  intro i s t h
  obtain ⟨hc, hzn, hi, hd, hv⟩ := exec_flagsKept h
  exact ⟨hc, hzn, hi, hd, hv⟩

/-! ## The registers an effect may change -/

/-- From `s` to `t`, only those of A, X, Y and SP changed that R21's and R31's tables let the instruction `i` write. -/
structure RegistersKept (i : Instr) (s t : State) : Prop where
  a : writesA i = false → t.a = s.a
  x : writesX i = false → t.x = s.x
  y : writesY i = false → t.y = s.y
  sp : writesSP i = false → t.sp = s.sp

namespace RegistersKept

variable {i : Instr} {s t : State}

theorem of_keepsRegisters (h : keepsRegisters s t) : RegistersKept i s t := by
  obtain ⟨ha, hx, hy, hsp⟩ := h
  exact ⟨fun _ => ha, fun _ => hx, fun _ => hy, fun _ => hsp⟩

theorem ofWritesA (h : writesA i = true) (hx : t.x = s.x) (hy : t.y = s.y) (hsp : t.sp = s.sp) : RegistersKept i s t :=
  ⟨fun hw => false_class hw h, fun _ => hx, fun _ => hy, fun _ => hsp⟩

theorem ofWritesX (h : writesX i = true) (ha : t.a = s.a) (hy : t.y = s.y) (hsp : t.sp = s.sp) : RegistersKept i s t :=
  ⟨fun _ => ha, fun hw => false_class hw h, fun _ => hy, fun _ => hsp⟩

theorem ofWritesY (h : writesY i = true) (ha : t.a = s.a) (hx : t.x = s.x) (hsp : t.sp = s.sp) : RegistersKept i s t :=
  ⟨fun _ => ha, fun _ => hx, fun hw => false_class hw h, fun _ => hsp⟩

theorem ofWritesSP (h : writesSP i = true) (ha : t.a = s.a) (hx : t.x = s.x) (hy : t.y = s.y) : RegistersKept i s t :=
  ⟨fun _ => ha, fun _ => hx, fun _ => hy, fun hw => false_class hw h⟩

end RegistersKept

@[simp] theorem readEffect_sp (mn : Mnemonic) (m : Byte) (s : State) : (readEffect mn m s).sp = s.sp := by cases mn <;> rfl

theorem readEffect_x {mn : Mnemonic} (h : mn ≠ .ldx) (m : Byte) (s : State) : (readEffect mn m s).x = s.x := by
  cases mn
  case ldx => exact absurd rfl h
  all_goals rfl

theorem readEffect_y {mn : Mnemonic} (h : mn ≠ .ldy) (m : Byte) (s : State) : (readEffect mn m s).y = s.y := by
  cases mn
  case ldy => exact absurd rfl h
  all_goals rfl

theorem readEffect_a {mn : Mnemonic} (h : mn ∉ [Mnemonic.lda, .adc, .sbc, .and, .ora, .eor]) (m : Byte) (s : State) :
    (readEffect mn m s).a = s.a := by
  cases mn
  case lda | adc | sbc | and | ora | eor => exact absurd (by decide) h
  all_goals rfl

theorem readEffect_registersKept (i : Instr) (m : Byte) (s : State) : RegistersKept i s (readEffect i.mnemonic m s) where
  a h := readEffect_a (fun hm => by simp_all [writesA]) m s
  x h := readEffect_x (fun hm => by simp [writesX, hm] at h) m s
  y h := readEffect_y (fun hm => by simp [writesY, hm] at h) m s
  sp _ := readEffect_sp _ m s

theorem plainEffect_registersKept (i : Instr) (s : State) : RegistersKept i s (plainEffect i s) := by
  cases i
  case txa | tya | aslA | lsrA | rolA | rorA => exact .ofWritesA rfl rfl rfl rfl
  case tax | tsx | inx | dex => exact .ofWritesX rfl rfl rfl rfl
  case tay | iny | dey => exact .ofWritesY rfl rfl rfl rfl
  case txs => exact .ofWritesSP rfl rfl rfl rfl
  case pha | php | plp | rts => refine .ofWritesSP rfl ?_ ?_ ?_ <;> simp
  case jsr => refine .ofWritesSP rfl ?_ ?_ ?_ <;> simp [callSubroutine]
  case rti => refine .ofWritesSP rfl ?_ ?_ ?_ <;> simp [returnFromInterrupt]
  case brk => refine .ofWritesSP rfl ?_ ?_ ?_ <;> simp [softwareInterrupt]
  case pla => exact ⟨fun h => false_class h rfl, fun _ => rfl, fun _ => rfl, fun h => false_class h rfl⟩
  all_goals exact .of_keepsRegisters ⟨rfl, rfl, rfl, rfl⟩

/-- R21 and R31 for the meaning of every instruction. -/
theorem exec_registersKept {i : Instr} {s t : State} (h : exec i s = .next t) : RegistersKept i s t := by
  rcases exec_next h with ⟨-, rfl⟩ | ⟨-, ea, -, rfl⟩ | ⟨-, -, ea, -, rfl⟩ | ⟨-, d, -, rfl⟩ | ⟨w, rfl, rfl⟩ |
    ⟨p, rfl, rfl⟩ | ⟨-, rfl⟩
  · obtain ⟨ha, hx, hy, -⟩ := readEffect_registersKept i (operandByte i.form s) (afterOperand i.form s)
    exact ⟨by simpa using ha, by simpa using hx, by simpa using hy, by simp⟩
  · exact .of_keepsRegisters (by simp [keepsRegisters])
  · exact .of_keepsRegisters (by simp [keepsRegisters])
  · cases branchTaken i.mnemonic s.flags <;> exact .of_keepsRegisters (by simp [keepsRegisters])
  · exact .of_keepsRegisters (by simp [keepsRegisters])
  · exact .of_keepsRegisters (by simp [keepsRegisters])
  · obtain ⟨ha, hx, hy, hsp⟩ := plainEffect_registersKept i s
    exact ⟨ha, hx, hy, hsp⟩

/-- Settles O52, from the registers each class of instructions leaves alone. -/
theorem registersHaveOnlyTheirWriters : Obligations.RegistersHaveOnlyTheirWriters := by
  intro i s t h
  obtain ⟨ha, hx, hy, hsp⟩ := exec_registersKept h
  exact ⟨ha, hx, hy, hsp⟩

/-! ## PC -/

@[simp] theorem readEffect_pc (mn : Mnemonic) (m : Byte) (s : State) : (readEffect mn m s).pc = s.pc := by cases mn <;> rfl

theorem plainEffect_pc {i : Instr} (h : setsPC i.mnemonic = false) (s : State) : (plainEffect i s).pc = s.pc := by
  cases i
  case jsr | rts | rti | brk => exact false_class h rfl
  case pha | php => exact push_pc _ _
  all_goals rfl

/-- The plain instructions that do not set PC have no operand byte. -/
theorem operandBytes_of_isPlain {i : Instr} (hp : isPlain i = true) (h : setsPC i.mnemonic = false) :
    i.form.mode.operandBytes = 0 := by
  cases i
  case jsr => exact false_class h rfl
  all_goals first | rfl | exact false_class rfl hp

/-- R22, R100: resolving the operand is all that moves PC, unless the instruction sets it. -/
theorem exec_pc {i : Instr} {s t : State} (h : exec i s = .next t) (hpc : setsPC i.mnemonic = false) :
    t.pc = s.pc + BitVec.ofNat 16 i.form.mode.operandBytes := by
  rcases exec_next h with ⟨-, rfl⟩ | ⟨-, ea, -, rfl⟩ | ⟨-, -, ea, -, rfl⟩ | ⟨hb, -⟩ | ⟨w, rfl, -⟩ | ⟨p, rfl, -⟩ | ⟨hp, rfl⟩
  · rw [State.tick_pc, readEffect_pc, afterOperand_pc]
  · rw [State.tick_pc, busWrite_pc, resolve_pc]
  · rw [State.tick_pc, busWrite_pc, State.setFlags_pc, afterOperand_pc]
  · exact false_class hpc (by simp [setsPC, hb])
  · exact false_class hpc rfl
  · exact false_class hpc rfl
  · rw [State.tick_pc, plainEffect_pc hpc, operandBytes_of_isPlain hp hpc, BitVec.add_zero]

/-- Settles O54: the bytes past which resolving moves PC, as a number. -/
theorem instructionsMovePCPastTheirBytes : Obligations.InstructionsMovePCPastTheirBytes := by
  intro i s t h hpc
  rw [exec_pc h hpc]
  simp

end Sys2Proof.Machine
end

section
/-! PROOF. P as a byte, the stack operations, the first Step and the placing of an instruction (spec/10_state.md R22-R30, R36). -/

namespace Sys2Proof.Machine

/-! ## P as a byte -/

/-- Settles O14, from the computation of `setZN` in numbers. -/
theorem setZNIgnoresThePreviousFlags : Obligations.SetZNIgnoresThePreviousFlags := by
  intro v f
  rw [setZN_eq]
  exact ⟨rfl, rfl, rfl, rfl, rfl, rfl⟩

/-- R24, R28: the bits of a pushed status byte, from bit 7 to bit 0. -/
theorem pushedP_bits (f : Flags) (b : Bool) :
    (pushedP f b).getLsbD 7 = f.n ∧ (pushedP f b).getLsbD 6 = f.v ∧ (pushedP f b).getLsbD 5 = true ∧
    (pushedP f b).getLsbD 4 = b ∧ (pushedP f b).getLsbD 3 = f.d ∧ (pushedP f b).getLsbD 2 = f.i ∧
    (pushedP f b).getLsbD 1 = f.z ∧ (pushedP f b).getLsbD 0 = f.c := by
  obtain ⟨n, v, d, i, z, c⟩ := f
  revert n v d i z c b
  decide

/-- R27, R164: the six flags of a pulled byte are those of the byte without bits 5 and 4. -/
theorem flagsOfByte_and_mask (p : Byte) : flagsOfByte (p &&& 0xCF) = flagsOfByte p := by
  revert p
  decide

/-- Settles O16: the bits of the pushed byte one by one, and the pull, which masks bits 5 and 4 out. -/
theorem statusByteHasItsLayout : Obligations.StatusByteHasItsLayout := by
  refine ⟨fun f b => ?_, flagsOfByte_pushedP, fun p q h => ?_⟩
  · obtain ⟨hn, hv, hu, hb, hd, hi, hz, hc⟩ := pushedP_bits f b
    exact ⟨hn, hv, hu, hb, hd, hi, hz, hc, rfl⟩
  · rw [← flagsOfByte_and_mask p, h, flagsOfByte_and_mask]

/-! ## The stack -/

/-- R30: a pull right after a push to RAM answers the byte pushed. -/
theorem pull_push_fst (v : Byte) {s : State} (hw : Memory.wf s.mem = true) (hio : isIo s.cfg (stackAddr s.sp) = false) :
    (pull (push v s)).1 = v := by
  rw [pull_fst, push_sp, sp_pred_succ, answer_ram (by rw [push_cfg]; exact hio)]
  exact peek_push v hw hio

/-- R30: a pull right after a push restores SP. -/
theorem pull_push_sp (v : Byte) (s : State) : (pull (push v s)).2.sp = s.sp := by
  rw [pull_sp, push_sp, sp_pred_succ]

/-- Settles O15, from the rules of `push` and `pull`. -/
theorem pushAndPullWrapInTheStackPage : Obligations.PushAndPullWrapInTheStackPage := by
  intro s v
  refine ⟨stackAddr_toNat s.sp, push_trace s v, ?_, ?_, pull_trace s,
    fun hw hio => ⟨pull_push_fst v hw hio, pull_push_sp v s⟩, keepsMemoryBut_push v s, keepsMemory_of_mem (pull_mem s)⟩
  · rw [push_sp]
    bv_omega
  · rw [pull_sp]
    bv_omega

/-! ## The first Step -/

/-- R312: a pending Reset wins the Step, whatever the dispatch state. -/
theorem step_of_resetPending {s : State} (h : s.resetPending = true) : step s = .next (resetSequence s) := by
  cases hf : s.fsm <;> simp [step, hf, stepRunning, stepFaulted, h]

/-- R340: of the state before it, the Reset sequence reads only the bus side, the counter and the IRQ line. -/
theorem resetSequence_congr {s t : State} (hc : s.cfg = t.cfg) (hm : s.mem = t.mem) (ht : s.trace = t.trace)
    (hn : s.cycles = t.cycles) (hi : s.irqLine = t.irqLine) : resetSequence s = resetSequence t := by
  cases s
  cases t
  cases hc
  cases hm
  cases ht
  cases hn
  cases hi
  rfl

/-- R341: from empty memory, the counter at 0 and the default configuration, the Reset sequence gives the model's reset state. -/
theorem resetSequence_powerOn (r : Registers) : resetSequence (State.powerOn r 0 [] Config.standard) = State.reset := by
  apply State.ext
  case h4 =>
    change word 0x00 0x00 = 0x0000
    decide
  all_goals rfl

/-- Settles O9: the first Step is the Reset sequence, which does not read the registers. -/
theorem powerOnRegistersAreNeverSeen : Obligations.PowerOnRegistersAreNeverSeen := by
  refine ⟨fun r r' launch mem cfg => ?_, fun r => ?_⟩
  · rw [step_of_resetPending rfl, step_of_resetPending rfl]
    exact congrArg _ (resetSequence_congr rfl rfl rfl rfl rfl)
  · rw [step_of_resetPending rfl, resetSequence_powerOn]

/-! ## Placing an instruction -/

/-- Storing three bytes at an address puts each at its own address, also where the address wraps (R22). -/
theorem read_placeBytes {m : Memory} (hw : Memory.wf m = true) (addr : Word) (a b c : Byte) :
    Memory.read (placeBytes [a, b, c] addr m) addr.toNat = a ∧
    Memory.read (placeBytes [a, b, c] addr m) (addr + 1).toNat = b ∧
    Memory.read (placeBytes [a, b, c] addr m) (addr + 2).toNat = c := by
  have h2 : addr + 1 + 1 = addr + 2 := by bv_omega
  have h01 : addr.toNat ≠ (addr + 1).toNat := by bv_omega
  have h02 : addr.toNat ≠ (addr + 2).toNat := by bv_omega
  have h12 : (addr + 1).toNat ≠ (addr + 2).toNat := by bv_omega
  have hw1 := Memory.write_wf hw addr.isLt a
  have hw2 := Memory.write_wf hw1 (addr + 1).isLt b
  simp only [placeBytes, h2]
  refine ⟨?_, ?_, Memory.read_write_eq hw2 _ c⟩
  · rw [Memory.read_write_ne c _ h02, Memory.read_write_ne b _ h01, Memory.read_write_eq hw]
  · rw [Memory.read_write_ne c _ h12, Memory.read_write_eq hw1]

/-- An address left out of the I/O regions is RAM. -/
@[simp] theorem isIo_backWithRam_self (c : Config) (addr : Word) : isIo (Config.backWithRam c addr) addr = false := by
  simp [isIo, Config.backWithRam]

/-- Leaving an address out makes no other address an I/O address. -/
theorem isIo_backWithRam {c : Config} {addr : Word} (h : isIo c addr = false) (b : Word) :
    isIo (Config.backWithRam c b) addr = false := by
  simp only [isIo, Config.backWithRam, List.any_eq_false, List.mem_filter] at h ⊢
  exact fun r hr => h r hr.1

/-- R23: where the three bytes at PC are RAM, the fetch looks at what memory holds there. -/
theorem fetchBytes_of_ram {s : State} (h0 : isIo s.cfg s.pc = false) (h1 : isIo s.cfg (s.pc + 1) = false)
    (h2 : isIo s.cfg (s.pc + 2) = false) : fetchBytes s = [s.peek s.pc, s.peek (s.pc + 1), s.peek (s.pc + 2)] := by
  have hpc : s.pc + 1 + 1 = s.pc + 2 := by bv_omega
  simp only [fetchBytes, fetch8_fst, fetch8_snd, consume_pc, hpc]
  rw [answer_ram h0, answer_ram (by simpa using h1), answer_ram (by simpa using h2)]
  rfl

/-- The fetch after an instruction is placed looks at what memory then holds. -/
theorem fetchBytes_withFetchWord (s : State) (nbits w : Nat) :
    fetchBytes (s.withFetchWord nbits w) =
      [(s.withFetchWord nbits w).peek s.pc, (s.withFetchWord nbits w).peek (s.pc + 1),
        (s.withFetchWord nbits w).peek (s.pc + 2)] :=
  fetchBytes_of_ram (isIo_backWithRam (isIo_backWithRam (isIo_backWithRam_self s.cfg s.pc) _) _)
    (isIo_backWithRam (isIo_backWithRam_self _ (s.pc + 1)) _) (isIo_backWithRam_self _ (s.pc + 2))

/-- In canonical memory those are the bytes placed. -/
theorem fetchBytes_withFetchWord_eq {s : State} (hw : Memory.wf s.mem = true) (nbits w : Nat) :
    fetchBytes (s.withFetchWord nbits w) = tableBytes nbits w := by
  obtain ⟨h0, h1, h2⟩ := read_placeBytes hw s.pc (tableByte nbits w 0) (tableByte nbits w 1) (tableByte nbits w 2)
  rw [fetchBytes_withFetchWord]
  exact congr (congrArg _ h0) (congr (congrArg _ h1) (congrArg (fun b => [b]) h2))

theorem executes_withFetchWord (s : State) (nbits w : Nat) : (s.withFetchWord nbits w).executes := ⟨rfl, rfl, rfl, .inl rfl⟩

/-- R82: a Step that executes runs the instruction its bytes decode to. -/
theorem step_of_decode {s : State} (h : s.executes) {i : Instr} {rest : List Byte}
    (hd : decode (fetchBytes s) = .ok (i, rest)) : step s = exec i (afterOpcode s) := by
  rw [step_executes h, stepInstr, hd]

/-- An instruction of the table's numbering is decoded from its bytes. -/
theorem decode_of_decodeTableWord {nbits w : Nat} {i : Instr} (h : decodeTableWord nbits w = some i) :
    ∃ rest, decode (tableBytes nbits w) = .ok (i, rest) := by
  unfold decodeTableWord at h
  split at h
  case h_1 j rest hd => exact ⟨rest, by rw [hd, Option.some.inj h]⟩
  case h_2 => exact absurd h (by simp)

/-- Settles O7: the fetch finds the bytes placed, and they decode to the instruction. -/
theorem storedInstructionRunsNext : Obligations.StoredInstructionRunsNext := by
  intro s nbits w i hw h
  obtain ⟨rest, hd⟩ := decode_of_decodeTableWord h
  rw [← fetchBytes_withFetchWord_eq hw] at hd
  exact ⟨step_of_decode (executes_withFetchWord s nbits w) hd, fetchBytes_withFetchWord s nbits w⟩

end Sys2Proof.Machine
end

section
/-! PROOF. Memory and its history (spec/20_memory.md R50-R54, R61): what every chain of moves keeps of them, and which instructions
only read. -/

namespace Sys2Proof.Machine

/-! ## What every Step keeps -/

/-- R50: no chain of moves leaves the canonical form of memory. -/
theorem Moves.wf {s t : State} (h : Moves s t) (hw : Memory.wf s.mem = true) : Memory.wf t.mem = true := by
  induction h with
  | same h =>
    obtain ⟨hm, -⟩ := h
    rwa [hm]
  | read s addr => exact hw
  | write s addr v => exact busWrite_wf s addr v hw
  | trans _ _ ih ik => exact ik (ih hw)

/-- Settles O57: a Step is a chain of moves, which keeps memory canonical and never writes the configuration. -/
theorem stepKeepsTheInvariant : Obligations.StepKeepsTheInvariant := by
  intro s t ⟨hw, hcfg⟩ ht
  have hmoves := step_moves s t ht
  obtain ⟨hc, -⟩ := hmoves.keeps
  exact ⟨hmoves.wf hw, hc ▸ hcfg⟩

/-! ## Memory and history in agreement -/

section Coherent

variable {image : Memory} {s : State}

/-- Only memory, the history and the configuration matter to their agreement. -/
theorem State.Coherent.congr {t : State} (h : s.Coherent image) (hm : t.mem = s.mem) (ht : t.trace = s.trace)
    (hc : t.cfg = s.cfg) : t.Coherent image := by
  obtain ⟨hw, hhist, hram⟩ := h
  refine ⟨hm ▸ hw, ?_, fun addr hio => ?_⟩
  · rwa [hc, ht]
  · rw [State.peek, hm, ht]
    exact hram addr (hc ▸ hio)

/-- R52: what the bus answers is what the history asks of the next read. -/
theorem State.Coherent.answer (h : s.Coherent image) (addr : Word) :
    s.answer addr = if isIo s.cfg addr then Config.busAnswer s.trace addr else ramAfter image s.trace addr := by
  obtain ⟨-, -, hram⟩ := h
  cases hio : isIo s.cfg addr with
  | true => simp [State.answer, hio]
  | false => rw [answer_ram hio]; exact hram addr hio

/-- R53: a bus read adds a read of the byte the history asks for. -/
theorem State.Coherent.after_busRead (h : s.Coherent image) (addr : Word) : (busRead addr s).2.Coherent image := by
  have hans := h.answer addr
  obtain ⟨hw, hhist, hram⟩ := h
  exact ⟨hw, ⟨hans, hhist⟩, hram⟩

/-- R54: a bus write changes RAM and the history's last writes alike; of an I/O region it changes no byte of RAM. -/
theorem State.Coherent.after_busWrite (h : s.Coherent image) (addr : Word) (v : Byte) : (busWrite addr v s).Coherent image := by
  obtain ⟨hw, hhist, hram⟩ := h
  refine ⟨busWrite_wf s addr v hw, ?_, fun b hio => ?_⟩
  · rw [busWrite_cfg, busWrite_trace]
    exact hhist
  · rw [busWrite_cfg] at hio
    rw [busWrite_trace, ramAfter, State.peek]
    split
    case isTrue heq =>
      subst heq
      exact busWrite_peek_eq s v hw hio
    case isFalse hne =>
      rw [busWrite_peek_ne s v (Ne.symm hne)]
      exact hram b hio

/-- R52, R61: no chain of moves breaks the agreement. -/
theorem Moves.coherent {t : State} (h : Moves s t) (hs : s.Coherent image) : t.Coherent image := by
  induction h with
  | same h =>
    obtain ⟨hm, ht, hc, -⟩ := h
    exact hs.congr hm ht hc
  | read s addr => exact hs.after_busRead addr
  | write s addr v => exact hs.after_busWrite addr v
  | trans _ _ ih ik => exact ik (ih hs)

end Coherent

/-- Settles O59: a Step is a chain of moves, each of which keeps memory and the history in agreement. -/
theorem stepKeepsMemoryCoherent : Obligations.StepKeepsMemoryCoherent :=
  fun _ s t hs ht => (step_moves s t ht).coherent hs

/-! ## Instructions that only read -/

/-- From `s` to `t`, memory is the same and the events are reads. -/
def ReadsOnly (s t : State) : Prop :=
  t.mem = s.mem ∧ ∃ es, t.trace = es ++ s.trace ∧ ∀ addr v, BusEvent.write addr v ∉ es

namespace ReadsOnly

variable {s t u : State}

theorem of_eq (hm : t.mem = s.mem) (ht : t.trace = s.trace) : ReadsOnly s t := ⟨hm, [], ht, by simp⟩

theorem of_read {addr : Word} {v : Byte} (hm : t.mem = s.mem) (ht : t.trace = .read addr v :: s.trace) : ReadsOnly s t :=
  ⟨hm, [.read addr v], ht, by simp⟩

theorem trans (h : ReadsOnly s t) (k : ReadsOnly t u) : ReadsOnly s u := by
  obtain ⟨hm, es, ht, hes⟩ := h
  obtain ⟨km, fs, kt, hfs⟩ := k
  exact ⟨km.trans hm, fs ++ es, by rw [kt, ht, List.append_assoc], fun addr v => by simp [hes addr v, hfs addr v]⟩

/-- A change of registers or of the counter after reads. -/
theorem andThen (h : ReadsOnly s t) (hm : u.mem = t.mem) (ht : u.trace = t.trace) : ReadsOnly s u := h.trans (.of_eq hm ht)

theorem keepsMemory (h : ReadsOnly s t) : keepsMemory s t := keepsMemory_of_mem h.1

theorem write_notMem_events (h : ReadsOnly s t) (addr : Word) (v : Byte) : BusEvent.write addr v ∉ eventsBetween s t := by
  obtain ⟨-, es, ht, hes⟩ := h
  rw [eventsBetween_of_trace ht, List.mem_reverse]
  exact hes addr v

end ReadsOnly

theorem pull_readsOnly (s : State) : ReadsOnly s (pull s).2 := .of_read (pull_mem s) (pull_trace s)

theorem pullFlags_readsOnly (s : State) : ReadsOnly s (pullFlags s) := (pull_readsOnly s).andThen rfl rfl

theorem pullPC_readsOnly (k : Word) (s : State) : ReadsOnly s (pullPC k s) :=
  ((pull_readsOnly s).trans (pull_readsOnly _)).andThen rfl rfl

/-- R115: the accesses of resolving are the Resolver's reads. -/
theorem resolve_readsOnly (f : Form) (s : State) : ReadsOnly s (resolve f s).state := by
  obtain ⟨es, ht, hes⟩ := resolve_trace f s
  refine ⟨resolve_mem f s, es, ht, fun addr v hmem => ?_⟩
  have hacc : Access.write addr ∈ es.reverse.map accessOf := List.mem_map.2 ⟨_, List.mem_reverse.2 hmem, rfl⟩
  simp [hes] at hacc

theorem afterOperand_readsOnly (f : Form) (s : State) : ReadsOnly s (afterOperand f s) := by
  unfold afterOperand
  split
  · exact (resolve_readsOnly f s).trans (.of_read (busRead_mem _ _) (busRead_trace _ _))
  · exact resolve_readsOnly f s

theorem readEffect_readsOnly (mn : Mnemonic) (m : Byte) (s : State) : ReadsOnly s (readEffect mn m s) := by
  obtain ⟨hm, ht, -⟩ := readEffect_sameBus mn m s
  exact .of_eq hm ht

theorem plainEffect_readsOnly {i : Instr} (h : writesMemory i = false) (s : State) : ReadsOnly s (plainEffect i s) := by
  cases i
  case pha | php | jsr | brk => exact false_class h rfl
  case pla => exact (pull_readsOnly s).andThen rfl rfl
  case plp => exact pullFlags_readsOnly s
  case rts => exact pullPC_readsOnly 1 s
  case rti => exact (pullFlags_readsOnly s).trans (pullPC_readsOnly 0 _)
  all_goals exact .of_eq rfl rfl

/-- R51: an instruction that the table of writers does not list only reads. -/
theorem exec_readsOnly {i : Instr} {s t : State} (h : exec i s = .next t) (hw : writesMemory i = false) : ReadsOnly s t := by
  rcases exec_next h with ⟨-, rfl⟩ | ⟨hs, -⟩ | ⟨hm, hf, -⟩ | ⟨-, d, -, rfl⟩ | ⟨w, -, rfl⟩ | ⟨p, -, rfl⟩ | ⟨-, rfl⟩
  · exact ((afterOperand_readsOnly i.form s).trans (readEffect_readsOnly _ _ _)).andThen rfl rfl
  · exact false_class hw (by simp [writesMemory, hs])
  · exact false_class hw (by simp [writesMemory, hm, hf])
  · cases branchTaken i.mnemonic s.flags <;> exact (resolve_readsOnly (.relative d) s).andThen rfl rfl
  · exact (resolve_readsOnly (.absolute w) s).andThen rfl rfl
  · exact (resolve_readsOnly (.indirect p) s).andThen rfl rfl
  · exact (plainEffect_readsOnly hw s).andThen rfl rfl

/-! ## Request inputs and configuration -/

/-- The request inputs and the configuration are unchanged. -/
def InputsKept (s t : State) : Prop :=
  t.resetPending = s.resetPending ∧ t.nmiPending = s.nmiPending ∧ t.irqLine = s.irqLine ∧ t.cfg = s.cfg

theorem readEffect_inputsKept (mn : Mnemonic) (m : Byte) (s : State) : InputsKept s (readEffect mn m s) := by
  cases mn <;> exact ⟨rfl, rfl, rfl, rfl⟩

theorem plainEffect_inputsKept (i : Instr) (s : State) : InputsKept s (plainEffect i s) := by
  cases i
  case pha | php | plp | rts => simp [InputsKept]
  case rti => simp [InputsKept, returnFromInterrupt]
  case jsr => simp [InputsKept, callSubroutine]
  case brk => simp [InputsKept, softwareInterrupt]
  all_goals exact ⟨rfl, rfl, rfl, rfl⟩

/-- R32, R311: no instruction changes a request input or the configuration. -/
theorem exec_inputsKept {i : Instr} {s t : State} (h : exec i s = .next t) : InputsKept s t := by
  rcases exec_next h with ⟨-, rfl⟩ | ⟨-, ea, -, rfl⟩ | ⟨-, -, ea, -, rfl⟩ | ⟨-, d, -, rfl⟩ | ⟨w, -, rfl⟩ | ⟨p, -, rfl⟩ | ⟨-, rfl⟩
  · simpa [InputsKept] using readEffect_inputsKept i.mnemonic (operandByte i.form s) (afterOperand i.form s)
  · simp [InputsKept]
  · simp [InputsKept]
  · cases branchTaken i.mnemonic s.flags <;> simp [InputsKept]
  · simp [InputsKept]
  · simp [InputsKept]
  · exact plainEffect_inputsKept i s

/-- Settles O53, from the instructions that only read and the inputs that every instruction keeps. -/
theorem memoryHasOnlyItsWriters : Obligations.MemoryHasOnlyItsWriters := by
  intro i s t h
  have hreads := exec_readsOnly h
  exact ⟨fun hw => ⟨(hreads hw).keepsMemory, (hreads hw).write_notMem_events⟩, exec_inputsKept h⟩

end Sys2Proof.Machine
end

section
/-! PROOF. The encoding (spec/30_encoding.md R71-R83): which instructions a Dispatch Entry makes, said once for its operand bytes and
once for the rows of the table; from it the two directions of decoding, the bytes rejected by name, and what a Step does with the
bytes at PC. -/

namespace Sys2Proof.Machine

/-! ## The operand bytes that complete a Dispatch Entry -/

/-- The operand bytes `ops` complete the entry's instruction to `i` (R71): none, one byte, or a word with its low byte first (R56). -/
inductive Makes : Build → List Byte → Instr → Prop where
  | plain (i : Instr) : Makes (.plain i) [] i
  | byte (f : Byte → Instr) (b : Byte) : Makes (.byte f) [b] (f b)
  | word (f : Word → Instr) (w : Word) : Makes (.word f) (wordBytes w) (f w)

section Makes

variable {P : Instr → Prop}

theorem forall_makes_plain {j : Instr} : (∀ ops i, Makes (.plain j) ops i → P i) ↔ P j :=
  ⟨fun h => h _ _ (.plain j), by rintro h _ _ ⟨⟩; exact h⟩

theorem forall_makes_byte {f : Byte → Instr} : (∀ ops i, Makes (.byte f) ops i → P i) ↔ ∀ b, P (f b) :=
  ⟨fun h b => h _ _ (.byte f b), by rintro h _ _ ⟨⟩; exact h _⟩

theorem forall_makes_word {f : Word → Instr} : (∀ ops i, Makes (.word f) ops i → P i) ↔ ∀ w, P (f w) :=
  ⟨fun h w => h _ _ (.word f w), by rintro h _ _ ⟨⟩; exact h _⟩

end Makes

/-- R71, R80: an entry takes its operand bytes from the front of what follows the opcode, and leaves the rest. -/
theorem take_eq_ok_iff {b : Build} {bytes rest : List Byte} {i : Instr} :
    b.take bytes = .ok (i, rest) ↔ ∃ ops, Makes b ops i ∧ bytes = ops ++ rest := by
  constructor
  · intro h
    match b, bytes, h with
    | .plain j, _, rfl => exact ⟨[], .plain j, rfl⟩
    | .byte f, v :: _, rfl => exact ⟨[v], .byte f v, rfl⟩
    | .word f, lo :: hi :: _, rfl => exact ⟨_, .word f (word hi lo), by simp [wordBytes]⟩
  · rintro ⟨ops, hm, rfl⟩
    cases hm with
    | plain => rfl
    | byte => rfl
    | word f w => simp [Build.take, wordBytes]

/-- An entry never finds a byte undefined: it can only run out of bytes. -/
theorem take_ne_undefinedOpcode (b : Build) (bytes : List Byte) (op : Byte) : b.take bytes ≠ .error (.undefinedOpcode op) := by
  intro h
  match b, bytes, h with
  | .byte _, [], h => cases h
  | .word _, [], h => cases h
  | .word _, [_], h => cases h

/-- R71, R80: an opcode byte decodes by its Dispatch Entry, with the operand bytes that complete it, and the rest is left over. -/
theorem decode_cons_eq_ok_iff {op : Byte} {bytes rest : List Byte} {i : Instr} :
    decode (op :: bytes) = .ok (i, rest) ↔ ∃ r ops, lookup op = some r ∧ Makes r.build ops i ∧ bytes = ops ++ rest := by
  cases hl : lookup op with
  | none => simp [decode, hl]
  | some r => simp [decode, hl, take_eq_ok_iff]

/-- R77: a byte is rejected by name when it has no Dispatch Entry, whatever follows it. -/
theorem decode_eq_undefinedOpcode_iff (op : Byte) (rest : List Byte) :
    decode (op :: rest) = .error (.undefinedOpcode op) ↔ lookup op = none := by
  cases hl : lookup op with
  | none => simp [decode, hl]
  | some r => simp [decode, hl, take_ne_undefinedOpcode]

/-! ## The rows of the Dispatch table -/

/-- What a Dispatch Entry says is true of the instructions it makes (R71, R72, R76): opcode, mnemonic, mode, number of operand
bytes, base count. -/
def Describes (r : Row) : Prop :=
  ∀ ops i, Makes r.build ops i →
    encode i = r.opcode :: ops ∧ r.mnemonic = i.mnemonic ∧ r.mode = i.form.mode ∧ ops.length = i.form.mode.operandBytes ∧
      r.base = baseCount i.mnemonic i.form.mode

theorem dispatchTable_describes : ∀ r ∈ dispatchTable, Describes r := by
  simp only [dispatchTable, dispatchRow0, dispatchRow1, dispatchRow2, dispatchRow3, dispatchRow4, dispatchRow5, dispatchRow6,
    dispatchRow7, dispatchRow8, dispatchRow9, dispatchRowA, dispatchRowB, dispatchRowC, dispatchRowD, dispatchRowE, dispatchRowF,
    List.forall_mem_append, List.forall_mem_cons, List.not_mem_nil, false_imp_iff, implies_true, and_true]
  and_intros
  all_goals rintro _ _ ⟨⟩; exact ⟨rfl, rfl, rfl, rfl, rfl⟩

/-- What holds of every instruction that a row of the table makes holds of every instruction: the table leaves none out (R72). -/
theorem forall_instr_of_dispatchTable {P : Instr → Prop} (h : ∀ r ∈ dispatchTable, ∀ ops i, Makes r.build ops i → P i)
    (i : Instr) : P i := by
  simp only [dispatchTable, dispatchRow0, dispatchRow1, dispatchRow2, dispatchRow3, dispatchRow4, dispatchRow5, dispatchRow6,
    dispatchRow7, dispatchRow8, dispatchRow9, dispatchRowA, dispatchRowB, dispatchRowC, dispatchRowD, dispatchRowE, dispatchRowF,
    List.forall_mem_append, List.forall_mem_cons, forall_makes_plain, forall_makes_byte, forall_makes_word] at h
  cases i <;> simp only [h]

/-- The rows stand in the order of their opcode bytes. -/
theorem opcodes_increase : (dispatchTable.map Row.opcode).IsChain (· < ·) := by
  simp [dispatchTable, dispatchRow0, dispatchRow1, dispatchRow2, dispatchRow3, dispatchRow4, dispatchRow5, dispatchRow6,
    dispatchRow7, dispatchRow8, dispatchRow9, dispatchRowA, dispatchRowB, dispatchRowC, dispatchRowD, dispatchRowE, dispatchRowF]

theorem opcode_of_lookup {op : Byte} {r : Row} (h : lookup op = some r) : r.opcode = op := by
  simpa using List.find?_some h

/-- R72: no two rows have one opcode byte, so each row is the entry of its own. -/
theorem lookup_opcode {r : Row} (hr : r ∈ dispatchTable) : lookup r.opcode = some r := by
  have hnodup : (dispatchTable.map Row.opcode).Nodup := (List.isChain_iff_pairwise.1 opcodes_increase).nodup
  cases hl : lookup r.opcode with
  | none => exact absurd (List.find?_eq_none.1 hl r hr) (by simp)
  | some r' => rw [List.inj_on_of_nodup_map hnodup (lookup_mem hl) hr (opcode_of_lookup hl)]

/-- R72, R76: every instruction is made by the Dispatch Entry of its own opcode byte. -/
theorem exists_entry (i : Instr) : ∃ r ops, lookup i.opcode = some r ∧ Makes r.build ops i ∧ encode i = i.opcode :: ops := by
  revert i
  refine forall_instr_of_dispatchTable fun r hr ops i hm => ?_
  obtain ⟨henc, -⟩ := dispatchTable_describes r hr ops i hm
  have hop : i.opcode = r.opcode := by rw [Instr.opcode, henc, List.headD_cons]
  exact ⟨r, ops, hop ▸ lookup_opcode hr, hm, hop ▸ henc⟩

/-- R77: the bytes with no row in the table are those of R77's list. -/
theorem lookup_eq_none_iff (op : Byte) : lookup op = none ↔ op ∈ undefinedOpcodes := by
  have hall : ∀ b : Byte, (lookup b).isNone = undefinedOpcodes.contains b := by decide
  rw [← Option.isNone_iff_eq_none, hall, List.contains_iff_mem]

/-! ## Decoding and encoding -/

/-- Settles O1: the entry of an instruction's opcode takes back the operand bytes that follow it. -/
theorem decodeInvertsEncode : Obligations.DecodeInvertsEncode := by
  intro i rest _
  obtain ⟨r, ops, hr, hm, henc⟩ := exists_entry i
  rw [henc, List.cons_append]
  exact decode_cons_eq_ok_iff.2 ⟨r, ops, hr, hm, rfl⟩

/-- R71, R80: bytes that decode are the encoding of their instruction and the rest. -/
theorem eq_encode_append_of_decode {bytes rest : List Byte} {i : Instr} (h : decode bytes = .ok (i, rest)) :
    bytes = encode i ++ rest := by
  cases bytes with
  | nil => cases h
  | cons op tail =>
    obtain ⟨r, ops, hr, hm, rfl⟩ := decode_cons_eq_ok_iff.1 h
    obtain ⟨henc, -⟩ := dispatchTable_describes r (lookup_mem hr) ops i hm
    rw [henc, opcode_of_lookup hr, List.cons_append]

/-- R80: an encoding is as long as the mode of its instruction says. -/
theorem length_encode (i : Instr) : (encode i).length = i.length := by
  obtain ⟨r, ops, hr, hm, henc⟩ := exists_entry i
  obtain ⟨-, -, -, hlen, -⟩ := dispatchTable_describes r (lookup_mem hr) ops i hm
  rw [henc, List.length_cons, hlen, Instr.length, Nat.add_comm]

/-- Settles O2, from the entry that decodes the bytes. -/
theorem encodeInvertsDecode : Obligations.EncodeInvertsDecode :=
  fun _ _ i h => ⟨eq_encode_append_of_decode h, length_encode i⟩

/-- Settles O3: only a byte with no Dispatch Entry is rejected by name. -/
theorem undefinedBytesAreRejectedByName : Obligations.UndefinedBytesAreRejectedByName :=
  fun op rest => (decode_eq_undefinedOpcode_iff op rest).trans (lookup_eq_none_iff op)

/-- Settles O4, word by word. -/
theorem sampleWordsDecode : Obligations.SampleWordsDecode := by
  unfold Obligations.SampleWordsDecode
  decide

/-- Settles O5: the entry that makes the instruction describes it. -/
theorem baseCountsFollowMnemonicAndMode : Obligations.BaseCountsFollowMnemonicAndMode := by
  intro i
  obtain ⟨r, ops, hr, hm, -⟩ := exists_entry i
  obtain ⟨-, hmn, hmode, -, hbase⟩ := dispatchTable_describes r (lookup_mem hr) ops i hm
  exact ⟨r, hr, hmn, hmode, hbase⟩

/-! ## The Step that runs what is decoded -/

/-- R82: the byte at PC is the opcode of the instruction decoded there. -/
theorem answer_pc_of_decode {s : State} {i : Instr} {rest : List Byte} (h : decode (fetchBytes s) = .ok (i, rest)) :
    s.answer s.pc = i.opcode := by
  obtain ⟨_, ops, -, -, henc⟩ := exists_entry i
  have hbytes := eq_encode_append_of_decode h
  rw [henc] at hbytes
  exact (List.cons.inj hbytes).1

/-- Settles O6: the opcode fetch is one `consume` of the opcode of the instruction decoded. -/
theorem stepRunsTheDecodedInstruction : Obligations.StepRunsTheDecodedInstruction := by
  intro s i rest he hd
  refine ⟨step_of_decode he hd, rfl, ?_, ⟨rfl, rfl, rfl, rfl⟩, rfl, rfl, rfl, rfl, rfl, rfl, rfl, rfl⟩
  rw [← answer_pc_of_decode hd]
  rfl

/-! ## Undefined bytes that the policy maps -/

/-- R11: the lookup in a table that maps each byte once finds every pair of the table. -/
theorem lookup_of_nodup_keys {table : List (Byte × Nat)} (hn : (table.map Prod.fst).Nodup) {op : Byte} {k : Nat}
    (h : (op, k) ∈ table) : table.lookup op = some k := by
  obtain ⟨before, after, rfl⟩ := List.append_of_mem h
  refine List.lookup_eq_some_iff.2 ⟨before, after, rfl, fun p hp => bne_iff_ne.2 fun heq => ?_⟩
  rw [List.map_append, List.nodup_append] at hn
  obtain ⟨-, -, hdisjoint⟩ := hn
  exact hdisjoint p.1 (List.mem_map_of_mem hp) op (by simp) heq.symm

/-- R11: in a configuration the platform can have, the policy gives a byte of its table the behaviour listed for it. -/
theorem aliasOf_of_mem {c : Config} (hw : c.wf = true) {table : List (Byte × Nat)} (hp : c.illegalPolicy = .aliased table)
    {op : Byte} {k : Nat} (h : (op, k) ∈ table) : aliasOf c.illegalPolicy op = some k := by
  simp only [Config.wf, hp, IllegalPolicy.wf, Bool.and_eq_true, decide_eq_true_eq] at hw
  obtain ⟨⟨-, hn⟩, -⟩ := hw
  rw [hp]
  exact lookup_of_nodup_keys hn h

/-- R78, R82: a Step at an undefined byte answers what the policy says of it. -/
theorem step_of_undefinedOpcode {s : State} (h : s.executes) {op : Byte}
    (hd : decode (fetchBytes s) = .error (.undefinedOpcode op)) : step s = undefinedOpcode op s.pc (afterOpcode s) := by
  rw [step_executes h, stepInstr, hd]

/-- R302: the condition of the decimal refusal. -/
theorem decimalRefused_iff (s : State) : decimalRefused s = true ↔ s.flags.d = true ∧ s.cfg.decimalMode = .refuse := by
  simp [decimalRefused]

/-- R300-R302: the state an error leaves right after the opcode fetch. -/
theorem failed_afterOpcode (e : StepError) (s : State) : failed e (afterOpcode s) =
    { s with pc := s.pc + 1, trace := .read s.pc (s.answer s.pc) :: s.trace, cycles := s.cycles + 1, fsm := .faulted e } := rfl

/-- Settles O49: the table's lookup finds the behaviour, and the refusal is asked for before it runs. -/
theorem aliasedOpcodeRunsItsBehaviour : Obligations.AliasedOpcodeRunsItsBehaviour := by
  intro s op table k he hd hp hw hmem
  obtain ⟨hop, -⟩ := decode_fetchBytes_error hd
  obtain rfl : op = s.answer s.pc := by simpa using hop
  have halias : aliasOf (afterOpcode s).cfg.illegalPolicy (s.answer s.pc) = some k := aliasOf_of_mem hw hp hmem
  have hcond : ((Config.aliasBehaviour k).decimal && decimalRefused (afterOpcode s)) = true ↔
      (Config.aliasBehaviour k).decimal = true ∧ s.flags.d = true ∧ s.cfg.decimalMode = .refuse := by
    rw [Bool.and_eq_true, decimalRefused_iff]
    rfl
  rw [step_of_undefinedOpcode he hd]
  simp only [undefinedOpcode, halias, runBehaviour, hcond, raiseError, report, failed_afterOpcode]

end Sys2Proof.Machine
end

section
/-! PROOF. Addressing modes (spec/40_addressing_modes.md R100-R115): the operand each mode gives, in numbers, and the accesses of every
instruction, in order. -/

namespace Sys2Proof.Machine

/-! ## Operands, in numbers -/

/-- A sum of two bytes, as an address, stays in the zero page (R104). -/
theorem zeroPage_add_toNat (b index : Byte) : (word 0x00 (b + index)).toNat = (b.toNat + index.toNat) % 256 := by
  simp [BitVec.toNat_add]

/-- The byte after a zero-page address, which wraps within the zero page (R111, R112). -/
theorem zeroPage_add_one_toNat (b : Byte) : (word 0x00 (b + 1)).toNat = (b.toNat + 1) % 256 := zeroPage_add_toNat b 1

/-- R110: the byte after an address, which wraps within the page of the address. -/
theorem word_hi8_lo8_add_one_toNat (p : Word) :
    (word (hi8 p) (lo8 p + 1)).toNat = p.toNat / 256 * 256 + (p.toNat % 256 + 1) % 256 := by
  simp [BitVec.toNat_add]

/-- Only the zero-page forms of LDX and STX have the mode ZeroPageY (R105). -/
theorem mnemonic_of_zeroPageY {i : Instr} (h : i.form.mode = .zeroPageY) : i.mnemonic = .ldx ∨ i.mnemonic = .stx := by
  cases i
  case ldxZpY => exact .inl rfl
  case stxZpY => exact .inr rfl
  all_goals exact absurd h Mode.noConfusion

/-- Settles O10, from the sum of two bytes as a zero-page address. -/
theorem zeroPageModesStayInTheZeroPage : Obligations.ZeroPageModesStayInTheZeroPage := by
  refine ⟨fun s b => ?_, fun _ => mnemonic_of_zeroPageY⟩
  exact ⟨_, _, _, rfl, by simp, rfl, zeroPage_add_toNat b s.x, rfl, zeroPage_add_toNat b s.y⟩

/-- R108, R109, R113: an indexed address, with the page-cross test in numbers. -/
theorem resolveIndexed_eq (w : Word) (index : Byte) (s : State) :
    resolveIndexed w index s = ⟨.addr (w + index.setWidth 16),
      decide (w.toNat / 256 ≠ (w + index.setWidth 16).toNat / 256), consumeWord w s⟩ := by
  rw [resolveIndexed, pageDiffers_eq]

/-- Settles O11: AbsoluteX and AbsoluteY are one indexed address, with X and with Y. -/
theorem absoluteModesAddModulo65536 : Obligations.AbsoluteModesAddModulo65536 := fun s w =>
  ⟨_, _, rfl, resolveIndexed_eq w s.x s, add_index_toNat w s.x, resolveIndexed_eq w s.y s, add_index_toNat w s.y⟩

/-- R112, R113: IndirectY, with the page-cross test in numbers. -/
theorem resolveIndirectY_eq (b : Byte) (s : State) :
    let q := readPointer (word 0x00 b) (word 0x00 (b + 1)) (consume b s)
    resolveIndirectY b s = ⟨.addr (q.1 + s.y.setWidth 16),
      decide (q.1.toNat / 256 ≠ (q.1 + s.y.setWidth 16).toNat / 256), q.2⟩ := by
  simp only [resolveIndirectY, pageDiffers_eq]

/-- Settles O12: the addresses of the two reads of each pointer in numbers, and IndirectY's sum with its page-cross test. -/
theorem indirectModesReadTheirPointer : Obligations.IndirectModesReadTheirPointer := by
  refine ⟨fun s p => ?_, fun s b => ?_, fun s b => ?_⟩
  · exact ⟨_, word_hi8_lo8_add_one_toNat p, rfl⟩
  · have hnext : (word 0x00 (b + s.x + 1)).toNat = (b.toNat + s.x.toNat + 1) % 256 := by
      rw [zeroPage_add_one_toNat, BitVec.toNat_add, Nat.mod_add_mod]
    exact ⟨_, _, zeroPage_add_toNat b s.x, hnext, rfl⟩
  · exact ⟨_, _, _, by simp, zeroPage_add_one_toNat b, add_index_toNat _ s.y, resolveIndirectY_eq b s⟩

/-- Settles O13, from the signed sum and the page-cross test in numbers. -/
theorem relativeTargetIsSigned : Obligations.RelativeTargetIsSigned := by
  intro s d
  have hcrossed := pageDiffers_eq (s.pc + 1) (s.pc + 1 + sext16 d)
  exact ⟨_, congrArg (Resolved.mk _ · _) hcrossed, add_sext16_toNat (s.pc + 1) d, BitVec.le_toInt d,
    Int.le_of_lt_add_one BitVec.toInt_lt⟩

/-! ## The accesses between two states -/

/-- From `s` to `t`, the history grows by events that make the accesses `l`, in order. -/
def Performs (l : List Access) (s t : State) : Prop := ∃ es, t.trace = es ++ s.trace ∧ es.reverse.map accessOf = l

namespace Performs

variable {l m : List Access} {s t u : State}

theorem of_eq (h : t.trace = s.trace) : Performs [] s t := ⟨[], h, rfl⟩

theorem of_event {e : BusEvent} (h : t.trace = e :: s.trace) : Performs [accessOf e] s t := ⟨[e], h, rfl⟩

theorem trans (h : Performs l s t) (k : Performs m t u) : Performs (l ++ m) s u := by
  obtain ⟨es, ht, rfl⟩ := h
  obtain ⟨fs, ku, rfl⟩ := k
  exact ⟨fs ++ es, by rw [ku, ht, List.append_assoc], by rw [List.reverse_append, List.map_append]⟩

/-- A change of registers or of the counter after the accesses. -/
theorem andThen (h : Performs l s t) (ht : u.trace = t.trace) : Performs l s u := by
  rw [← List.append_nil l]
  exact h.trans (.of_eq ht)

theorem map_eventsBetween (h : Performs l s t) : (eventsBetween s t).map accessOf = l := by
  obtain ⟨es, ht, rfl⟩ := h
  rw [eventsBetween_of_trace ht]

end Performs

theorem busRead_performs (addr : Word) (s : State) : Performs [.read addr] s (busRead addr s).2 :=
  .of_event (busRead_trace s addr)

theorem busWrite_performs (addr : Word) (v : Byte) (s : State) : Performs [.write addr] s (busWrite addr v s) :=
  .of_event (busWrite_trace s addr v)

theorem push_performs (v : Byte) (s : State) : Performs [.write (stackAddr s.sp)] s (push v s) := .of_event (push_trace s v)

theorem pull_performs (s : State) : Performs [.read (stackAddr (s.sp + 1))] s (pull s).2 := .of_event (pull_trace s)

theorem pullFlags_performs (s : State) : Performs [.read (stackAddr (s.sp + 1))] s (pullFlags s) := (pull_performs s).andThen rfl

theorem pullPC_performs (k : Word) (s : State) :
    Performs [.read (stackAddr (s.sp + 1)), .read (stackAddr (s.sp + 2))] s (pullPC k s) := by
  rw [← sp_succ_two]
  exact ((pull_performs s).trans (pull_performs _)).andThen rfl

theorem returnFromInterrupt_performs (s : State) :
    Performs [.read (stackAddr (s.sp + 1)), .read (stackAddr (s.sp + 2)), .read (stackAddr (s.sp + 3))] s
      (returnFromInterrupt s) := by
  have h := (pullFlags_performs s).trans (pullPC_performs 0 (pullFlags s))
  rwa [pullFlags_sp, sp_succ_two, BitVec.add_assoc] at h

theorem interruptSequence_performs (k : InterruptKind) (s : State) :
    Performs [.write (stackAddr s.sp), .write (stackAddr (s.sp - 1)), .write (stackAddr (s.sp - 2)), .read (vectorOf k),
      .read (vectorOf k + 1)] s (interruptSequence k s) := ⟨_, interruptSequence_trace k s, rfl⟩

/-- R115: the accesses of resolving are the Resolver's reads. -/
theorem resolve_performs (f : Form) (s : State) : Performs ((resolverReads f s).map .read) s (resolve f s).state :=
  resolve_trace f s

/-- R241: JSR reads its operand word in full, then pushes two bytes. -/
theorem callSubroutine_performs (w : Word) (s : State) :
    Performs ((resolverReads (.absolute w) s).map .read ++ [.write (stackAddr s.sp), .write (stackAddr (s.sp - 1))]) s
      (callSubroutine w s) :=
  (resolve_performs (.absolute w) s).trans (((push_performs _ _).trans (push_performs _ _)).andThen rfl)

/-! ## The accesses of each class of instructions -/

theorem afterOperand_performs_of_addr {f : Form} {s : State} {ea : Word} (h : (resolve f s).operand = .addr ea) :
    Performs ((resolverReads f s).map .read ++ [.read ea]) s (afterOperand f s) :=
  (resolve_performs f s).trans (.of_event (afterOperand_trace h))

/-- R114: a read-class instruction reads its operand at the effective address, where its mode has one. -/
theorem afterOperand_performs {mn : Mnemonic} (h : isReadClass mn = true) (f : Form) (s : State) :
    Performs ((resolverReads f s).map .read ++ operandAccesses mn (effectiveAddress f s)) s (afterOperand f s) := by
  cases ho : (resolve f s).operand
  case addr ea =>
    rw [effectiveAddress_eq ho, operandAccesses, if_pos h]
    exact afterOperand_performs_of_addr ho
  all_goals simpa [afterOperand, effectiveAddress, operandAccesses, ho] using resolve_performs f s

/-- R134-R136: a store writes at its effective address and does not read it. -/
theorem operandAccesses_of_isStore {mn : Mnemonic} (h : isStore mn = true) (ea : Word) :
    operandAccesses mn (some ea) = [.write ea] := by
  cases mn
  case sta | stx | sty => rfl
  all_goals exact false_class rfl h

/-- R200: a read-modify-write instruction reads its operand once and writes it once. -/
theorem operandAccesses_of_isModify {mn : Mnemonic} (h : isModify mn = true) (ea : Word) :
    operandAccesses mn (some ea) = [.read ea, .write ea] := by
  cases mn
  case asl | lsr | rol | ror | inc | dec => rfl
  all_goals exact false_class rfl h

/-- The plain instructions access no operand beyond the bytes that resolving reads. -/
theorem operandAccesses_of_isPlain {i : Instr} (h : isPlain i = true) (s : State) :
    operandAccesses i.mnemonic (effectiveAddress i.form s) = [] := by
  cases i <;> first | rfl | exact false_class rfl h

/-- An instruction that works on an operand in memory, or branches, makes no stack access. -/
theorem stackAccesses_of_operand {mn : Mnemonic} (h : (isReadClass mn || isStore mn || isModify mn || isBranch mn) = true)
    (sp : Byte) : stackAccesses mn sp = [] := by
  cases mn
  case pha | php | pla | plp | jsr | rts | rti | brk => exact false_class rfl h
  all_goals rfl

theorem plainEffect_performs {i : Instr} (h : isPlain i = true) (s : State) :
    Performs ((resolverReads i.form s).map .read ++ stackAccesses i.mnemonic s.sp) s (plainEffect i s) := by
  cases i
  case pha | php => exact push_performs _ s
  case pla => exact (pull_performs s).andThen rfl
  case plp => exact pullFlags_performs s
  case jsr w => exact callSubroutine_performs w s
  case rts => exact pullPC_performs 1 s
  case rti => exact returnFromInterrupt_performs s
  case brk => exact interruptSequence_performs .brk (s.setPC (s.pc + 1))
  all_goals first | exact .of_eq rfl | exact false_class rfl h

/-- R59, R115: the accesses of an instruction, as one list. -/
def instrAccesses (i : Instr) (s : State) : List Access :=
  (resolverReads i.form s).map .read ++ operandAccesses i.mnemonic (effectiveAddress i.form s) ++ stackAccesses i.mnemonic s.sp

/-- R59, R115 for the meaning of every instruction. -/
theorem exec_performs {i : Instr} {s t : State} (h : exec i s = .next t) : Performs (instrAccesses i s) s t := by
  unfold instrAccesses
  rcases exec_next h with ⟨hr, rfl⟩ | ⟨hs, ea, he, rfl⟩ | ⟨hm, -, ea, he, rfl⟩ | ⟨hb, d, hd, rfl⟩ | ⟨w, rfl, rfl⟩ |
    ⟨p, rfl, rfl⟩ | ⟨hp, rfl⟩
  · obtain ⟨-, htrace, -⟩ := readEffect_sameBus i.mnemonic (operandByte i.form s) (afterOperand i.form s)
    rw [stackAccesses_of_operand (by simp [hr]), List.append_nil]
    exact (afterOperand_performs hr i.form s).andThen htrace
  · rw [stackAccesses_of_operand (by simp [hs]), List.append_nil, effectiveAddress_eq he, operandAccesses_of_isStore hs]
    exact ((resolve_performs i.form s).trans (busWrite_performs ea _ _)).andThen rfl
  · rw [stackAccesses_of_operand (by simp [hm]), List.append_nil, effectiveAddress_eq he, operandAccesses_of_isModify hm]
    have hread := (afterOperand_performs_of_addr he).andThen
      (u := (afterOperand i.form s).setFlags (modifyByte i.mnemonic (operandByte i.form s) s.flags).flags) rfl
    rw [List.append_cons]
    exact (hread.trans (busWrite_performs ea _ _)).andThen rfl
  · have hnone : operandAccesses i.mnemonic (effectiveAddress (.relative d) s) = [] := rfl
    rw [stackAccesses_of_operand (by simp [hb]), hd, hnone, List.append_nil, List.append_nil]
    cases branchTaken i.mnemonic s.flags <;> exact (resolve_performs (.relative d) s).andThen rfl
  · exact (resolve_performs (.absolute w) s).andThen rfl
  · exact (resolve_performs (.indirect p) s).andThen rfl
  · rw [operandAccesses_of_isPlain hp, List.append_nil]
    exact (plainEffect_performs hp s).andThen rfl

/-- Settles O56: the events of an instruction make exactly the accesses it performs. -/
theorem busEventsAreExactlyTheNeededOnes : Obligations.BusEventsAreExactlyTheNeededOnes :=
  fun _ _ _ h => (exec_performs h).map_eventsBetween

end Sys2Proof.Machine
end

section
/-! PROOF. Loads, stores and transfers (spec/41_load_store_transfer.md R131-R143): the state after a read-class, a store or a plain
instruction, and what the effect of each of the family's instructions is, field by field. -/

namespace Sys2Proof.Machine

/-! ## The next state of an instruction, by class -/

/-- R16, R180: a read-class instruction other than ADC and SBC completes in every state. -/
theorem exec_read_next {i : Instr} (h : isReadClass i.mnemonic = true) (hd : i.mnemonic ≠ .adc ∧ i.mnemonic ≠ .sbc) (s : State) :
    exec i s = .next ((readEffect i.mnemonic (operandByte i.form s) (afterOperand i.form s)).tick
      (cycles i.opcode false (resolve i.form s).crossed)) := by
  rw [exec_read h hd, readClass_next (form_of_read h)]

/-- R134-R136: a store completes in every state, and its mode gives an effective address. -/
theorem exec_store_next {i : Instr} (h : isStore i.mnemonic = true) (s : State) :
    ∃ ea, effectiveAddress i.form s = some ea ∧
      exec i s = .next ((busWrite ea (storedByte i.mnemonic s) (resolve i.form s).state).tick
        (cycles i.opcode false (resolve i.form s).crossed)) := by
  obtain ⟨ea, he⟩ := resolve_addr (form_of_store h) s
  exact ⟨ea, effectiveAddress_eq he, by rw [exec_store h, storeClass_next he]⟩

/-- A plain instruction completes in every state, with its effect and the ticks of its opcode. -/
theorem exec_plain_next {i : Instr} (h : isPlain i = true) (s : State) :
    exec i s = .next ((plainEffect i s).tick (cycles i.opcode false false)) := exec_plain h s

/-! ## Loads -/

/-- R131-R133: a load writes the register it names, Z and N, and nothing else. -/
theorem readEffect_load {mn : Mnemonic} (h : mn = .lda ∨ mn = .ldx ∨ mn = .ldy) (v : Byte) (s : State) :
    readEffect mn v s = { s with
      a := if mn = .lda then v else s.a
      x := if mn = .ldx then v else s.x
      y := if mn = .ldy then v else s.y
      flags := flagsOfResult v s.flags } := by
  rw [← setZN_eq]
  rcases h with rfl | rfl | rfl <;> rfl

/-- R131-R133: loads are of the read class, and none is ADC or SBC, which may be refused. -/
theorem isReadClass_of_load {mn : Mnemonic} (h : mn = .lda ∨ mn = .ldx ∨ mn = .ldy) :
    isReadClass mn = true ∧ mn ≠ .adc ∧ mn ≠ .sbc := by
  rcases h with rfl | rfl | rfl <;> decide

/-- Settles O17: reading the operand changes PC and the history, and the load's effect its register, Z and N. -/
theorem loadsWriteTheirRegister : Obligations.LoadsWriteTheirRegister := by
  intro i s h
  obtain ⟨hread, hdecimal⟩ := isReadClass_of_load h
  refine ⟨_, exec_read_next hread hdecimal s, ?_⟩
  rw [readEffect_load h]
  refine ⟨?_, ?_, ?_, ?_, ?_, keepsMemory_of_mem ?_, ?_⟩ <;> simp [keepsControl]

/-! ## Stores -/

theorem isStore_iff (mn : Mnemonic) : isStore mn = true ↔ mn = .sta ∨ mn = .stx ∨ mn = .sty := by
  simp [isStore, or_assoc]

/-- R134-R136: the byte a store writes is the register its mnemonic names. -/
theorem storedByte_of_store {mn : Mnemonic} (h : mn = .sta ∨ mn = .stx ∨ mn = .sty) (s : State) :
    storedByte mn s = if mn = .sta then s.a else if mn = .stx then s.x else s.y := by
  rcases h with rfl | rfl | rfl <;> rfl

/-- Settles O18: resolving only reads, and the bus write that follows changes the byte at the effective address alone. -/
theorem storesWriteTheEffectiveAddress : Obligations.StoresWriteTheEffectiveAddress := by
  intro i s h
  obtain ⟨ea, hea, hexec⟩ := exec_store_next ((isStore_iff _).2 h) s
  have hpeek (hw : Memory.wf s.mem = true) (hio : isIo s.cfg ea = false) :
      (busWrite ea (storedByte i.mnemonic s) (resolve i.form s).state).peek ea = storedByte i.mnemonic s :=
    busWrite_peek_eq _ _ (by rwa [resolve_mem]) (by rwa [resolve_cfg])
  have hkeeps := keepsMemoryBut_of_mem (keepsMemoryBut_busWrite ea (storedByte i.mnemonic s) (resolve i.form s).state)
    (resolve_mem i.form s).symm rfl
  refine ⟨_, ea, _, hexec, hea, storedByte_of_store h s, ?_, hpeek, hkeeps, ?_, ?_, ?_⟩ <;>
    simp [keepsRegisters, keepsControl]

/-! ## Transfers -/

/-- R138-R143: a transfer leaves everything but A, X, Y, SP, the flags and the counter alone. -/
theorem transfer_keeps {i : Instr} (h : i ∈ [Instr.tax, .txa, .tay, .tya, .tsx, .txs]) (s : State) (n : Nat) :
    let t := (plainEffect i s).tick n
    keepsMemory s t ∧ keepsControl s t ∧ t.pc = s.pc ∧ t.trace = s.trace := by
  fin_cases h <;> exact ⟨fun _ => rfl, ⟨rfl, rfl, rfl, rfl, rfl⟩, rfl, rfl⟩

/-- Settles O19: each transfer is one load of a register from a register, but TXS, which sets SP and no flag. -/
theorem transfersCopyARegister : Obligations.TransfersCopyARegister := by
  intro s
  refine ⟨_, _, _, _, _, _,
    ⟨exec_plain_next rfl s, rfl, rfl, rfl, rfl, setZN_eq s.a s.flags⟩,
    ⟨exec_plain_next rfl s, rfl, rfl, rfl, rfl, setZN_eq s.x s.flags⟩,
    ⟨exec_plain_next rfl s, rfl, rfl, rfl, rfl, setZN_eq s.a s.flags⟩,
    ⟨exec_plain_next rfl s, rfl, rfl, rfl, rfl, setZN_eq s.y s.flags⟩,
    ⟨exec_plain_next rfl s, rfl, rfl, rfl, rfl, setZN_eq s.sp s.flags⟩,
    ⟨exec_plain_next rfl s, rfl, rfl, rfl, rfl, rfl⟩, ?_⟩
  exact List.forall_mem_map (f := fun i => (plainEffect i s).tick (cycles i.opcode false false)).2
    fun _ hi => transfer_keeps hi s _

end Sys2Proof.Machine
end

section
/-! PROOF. The stack instructions PHA, PHP, PLA and PLP (spec/42_stack.md R161-R164). -/

namespace Sys2Proof.Machine

/-! ## Pushes -/

/-- The byte PHA or PHP pushes (R161, R163). -/
def pushedByte (i : Instr) (s : State) : Byte := if i = .pha then s.a else registerView s.flags ||| 0x30

/-- R161, R163: PHA and PHP complete in every state with one push. -/
theorem exec_push_next {i : Instr} (h : i = .pha ∨ i = .php) (s : State) :
    exec i s = .next ((push (pushedByte i s) s).tick (cycles i.opcode false false)) := by
  rcases h with rfl | rfl
  · exact exec_plain_next rfl s
  · have hbyte : pushedByte .php s = pushedP s.flags true := (pushedP_true s.flags).symm
    rw [hbyte]
    exact exec_plain_next rfl s

/-- R30: a push writes its byte at the stack address, lowers SP, and leaves everything else alone; ticks after it do not matter. -/
theorem push_stores (v : Byte) (s : State) (n : Nat) :
    let t := (push v s).tick n
    t.trace = .write (stackAddr s.sp) v :: s.trace ∧ t.sp = s.sp - 1 ∧
    (Memory.wf s.mem = true → isIo s.cfg (stackAddr s.sp) = false → t.peek (stackAddr s.sp) = v) ∧
    keepsMemoryBut [stackAddr s.sp] s t ∧ t.a = s.a ∧ t.x = s.x ∧ t.y = s.y ∧ t.flags = s.flags ∧ t.pc = s.pc ∧
    keepsControl s t := by
  refine ⟨push_trace s v, push_sp s v, peek_push v, keepsMemoryBut_push v s, ?_⟩
  simp [keepsControl]

/-- Settles O20: each is one push, of A or of the status byte. -/
theorem pushInstructionsStoreOneStackByte : Obligations.PushInstructionsStoreOneStackByte :=
  fun i s h => ⟨_, pushedByte i s, exec_push_next h s, rfl, push_stores _ s _⟩

/-! ## Pulls -/

/-- R162, R164: a pull instruction raises SP, reads the byte there, and leaves everything but A, the flags and the counter alone. -/
theorem pullInstruction_keeps {i : Instr} (h : i ∈ [Instr.pla, .plp]) (s : State) (n : Nat) :
    let t := (plainEffect i s).tick n
    t.sp = s.sp + 1 ∧ t.x = s.x ∧ t.y = s.y ∧ t.pc = s.pc ∧ keepsMemory s t ∧ keepsControl s t ∧
      t.trace = .read (stackAddr (s.sp + 1)) (s.answer (stackAddr (s.sp + 1))) :: s.trace := by
  fin_cases h <;> exact ⟨rfl, rfl, rfl, rfl, fun _ => rfl, ⟨rfl, rfl, rfl, rfl, rfl⟩, rfl⟩

/-- Settles O21: PLA loads the byte pulled into A, PLP takes the flags from it, and the rest is the pull's. -/
theorem pullInstructionsReadOneStackByte : Obligations.PullInstructionsReadOneStackByte := by
  intro s
  refine ⟨_, _, ⟨exec_plain_next rfl s, rfl, setZN_eq _ s.flags⟩,
    ⟨exec_plain_next rfl s, rfl, registerView_flagsOfByte _⟩, ?_⟩
  exact List.forall_mem_map (f := fun i => (plainEffect i s).tick (cycles i.opcode false false)).2
    fun _ hi => pullInstruction_keeps hi s _

/-! ## A pull after a push -/

/-- R162: pulling into A what was just pushed to RAM loads the byte pushed into A and restores SP. -/
theorem pullA_push (v : Byte) {s : State} (hw : Memory.wf s.mem = true) (hio : isIo s.cfg (stackAddr s.sp) = false) :
    (pullA (push v s)).a = v ∧ (pullA (push v s)).sp = s.sp ∧ (pullA (push v s)).flags = flagsOfResult v s.flags := by
  have hbyte := pull_push_fst v hw hio
  refine ⟨hbyte, pull_push_sp v s, ?_⟩
  calc (pullA (push v s)).flags
      = setZN (pull (push v s)).1 (push v s).flags := rfl
    _ = flagsOfResult v s.flags := by rw [hbyte, setZN_eq, push_flags]

/-- Settles O22: the ticks between PHA and PLA do not matter, so it is `pullA` after `push`. -/
theorem pushThenPullRestoresAAndSP : Obligations.PushThenPullRestoresAAndSP := by
  intro s hw hio
  refine ⟨_, _, exec_plain_next (i := .pha) rfl s, exec_plain_next (i := .pla) rfl _, ?_⟩
  rw [plainEffect_pha, plainEffect_pla, pullA_tick]
  exact pullA_push s.a hw hio

end Sys2Proof.Machine
end

section
/-! PROOF. Arithmetic and logic (spec/43_arithmetic_logic.md R181-R189): the binary and decimal adders in numbers, the one state ADC
and SBC leave with the result of either, and what AND, ORA, EOR and BIT make of A and the flags. -/

namespace Sys2Proof.Machine

/-! ## The binary adder (R181) -/

theorem addCore_toNat (a b : Byte) (cin : Bool) : (addCore a b cin).r.toNat = (a.toNat + b.toNat + bit cin) % 256 := by
  simp [addCore]

/-- V is the signed overflow: operands of one sign have a sum of the other exactly when it leaves -128..127. -/
theorem addCore_v_iff (a b : Byte) (cin : Bool) :
    (addCore a b cin).v = true ↔ a.toInt + b.toInt + bit cin < -128 ∨ 127 < a.toInt + b.toInt + bit cin := by
  refine (overflow_bit_iff a b (addCore a b cin).r).trans ?_
  rw [addCore_toNat, byte_toInt, byte_toInt, ne_eq, decide_eq_decide, decide_eq_decide]
  have ha := a.isLt
  have hb := b.isLt
  have hbit := bit_le_one cin
  split <;> split <;> omega

theorem addCore_v (a b : Byte) (cin : Bool) :
    (addCore a b cin).v = decide (a.toInt + b.toInt + bit cin < -128 ∨ 127 < a.toInt + b.toInt + bit cin) := by
  rw [Bool.eq_iff_iff, addCore_v_iff, decide_eq_true_iff]

/-- Settles O23: V in terms of signs is the model's bit formula, and the signed reading is `addCore_v_iff`. -/
theorem binaryAdderCarriesAndOverflows : Obligations.BinaryAdderCarriesAndOverflows :=
  fun a b cin => ⟨addCore_toNat a b cin, rfl, overflow_bit_iff a b _, addCore_v_iff a b cin⟩

/-! ## Binary subtraction: adding the one's complement (R184) -/

theorem addCore_not_toNat (a b : Byte) (cin : Bool) :
    ((addCore a (~~~b) cin).r.toNat : Int) = ((a.toNat : Int) - b.toNat - (1 - bit cin : Nat)) % 256 := by
  rw [addCore_toNat, byte_not_toNat]
  have hb := b.isLt
  have hbit := bit_le_one cin
  omega

theorem addCore_not_c (a b : Byte) (cin : Bool) :
    (addCore a (~~~b) cin).c = decide (a.toNat ≥ b.toNat + (1 - bit cin)) := by
  refine decide_eq_decide.2 ?_
  rw [byte_not_toNat]
  have hb := b.isLt
  have hbit := bit_le_one cin
  omega

theorem addCore_not_v (a b : Byte) (cin : Bool) :
    (addCore a (~~~b) cin).v = decide (a.toInt - b.toInt - (1 - bit cin : Nat) < -128 ∨
      127 < a.toInt - b.toInt - (1 - bit cin : Nat)) := by
  rw [addCore_v, decide_eq_decide, byte_not_toInt]
  have hbit := bit_le_one cin
  omega

/-- The binary difference as a natural number: 256 is added before each subtraction. -/
theorem addCore_not_toNat_eq (a b : Byte) (cin : Bool) :
    (addCore a (~~~b) cin).r.toNat = (a.toNat + 256 - b.toNat + 256 - (1 - bit cin)) % 256 := by
  have hdiff := addCore_not_toNat a b cin
  have hb := b.isLt
  omega

/-! ## Decimal digits (R183) -/

/-- A byte made of two decimal digits stands for the number they write. -/
theorem isBcd_of_digits {v : Byte} {h l : Nat} (hv : v.toNat = h * 16 + l) (hh : h < 10) (hl : l < 10) :
    isBcd v ∧ bcdValue v = h * 10 + l := by
  unfold isBcd bcdValue
  omega

/-- DecAdd's correction by 6 carries the ten of a low digit sum into the high digit. -/
theorem decAdd_low_correction {n : Nat} (h : n < 20) :
    (if n ≥ 0x0A then (n + 0x06) % 16 + 0x10 else n) = n / 10 * 16 + n % 10 := by
  split <;> omega

/-- DecAdd's correction by 0x60 carries the ten of a high digit sum out of the byte. -/
theorem decAdd_high_correction {high low : Nat} (hh : high < 20) (hl : low < 10) :
    let s := high * 16 + low
    (if s ≥ 0xA0 then s + 0x60 else s) % 256 = high % 10 * 16 + low ∧
      ((if s ≥ 0xA0 then s + 0x60 else s) ≥ 0x100 ↔ 10 ≤ high) := by
  dsimp only
  split <;> omega

/-- DecSub's correction by 6 borrows the ten that a low digit difference lacks from the high digit. -/
theorem decSub_low_correction {n : Int} (hlow : -10 ≤ n) (hhigh : n < 10) :
    (if n < 0 then (n - 0x06) % 16 - 0x10 else n) = n / 10 * 16 + n % 10 := by
  split <;> omega

/-- DecSub's correction by 0x60 borrows the ten that a high digit difference lacks from outside the byte. -/
theorem decSub_high_correction {high low : Int} (hh : -10 ≤ high ∧ high < 10) (hl : 0 ≤ low ∧ low < 10) :
    let s := high * 16 + low
    (if s < 0 then s - 0x60 else s) % 256 = high % 10 * 16 + low := by
  dsimp only
  split <;> omega

/-- On decimal digits, DecAdd adds digit by digit. -/
theorem decAdd_digits {a b : Byte} (ha : isBcd a) (hb : isBcd b) (cin : Bool) :
    let low := lowDigit a + lowDigit b + bit cin
    let high := a.toNat / 16 + b.toNat / 16 + low / 10
    (decAdd a b cin).r.toNat = high % 10 * 16 + low % 10 ∧ (decAdd a b cin).c = decide (10 ≤ high) := by
  obtain ⟨hal, hah⟩ : lowDigit a < 10 ∧ a.toNat / 16 < 10 := ha
  obtain ⟨hbl, hbh⟩ : lowDigit b < 10 ∧ b.toNat / 16 < 10 := hb
  have hlow : lowDigit a + lowDigit b + bit cin < 20 := by
    have hbit := bit_le_one cin
    omega
  have hsum (l : Nat) : highPart a + highPart b + (l / 10 * 16 + l % 10) =
      (a.toNat / 16 + b.toNat / 16 + l / 10) * 16 + l % 10 := by
    unfold highPart
    omega
  simp only [decAdd, decAdd_low_correction hlow, hsum, BitVec.toNat_ofNat, decide_eq_decide]
  exact decAdd_high_correction (by omega) (Nat.mod_lt _ (by decide))

/-- On decimal digits, DecAdd gives the decimal sum and its carry. -/
theorem decAdd_bcdValue {a b : Byte} (ha : isBcd a) (hb : isBcd b) (cin : Bool) :
    let sum := bcdValue a + bcdValue b + bit cin
    isBcd (decAdd a b cin).r ∧ bcdValue (decAdd a b cin).r = sum % 100 ∧ (decAdd a b cin).c = decide (sum ≥ 100) := by
  obtain ⟨hr, hc⟩ := decAdd_digits ha hb cin
  obtain ⟨hbcd, hvalue⟩ := isBcd_of_digits hr (Nat.mod_lt _ (by decide)) (Nat.mod_lt _ (by decide))
  refine ⟨hbcd, ?_, ?_⟩
  · rw [hvalue]
    simp only [bcdValue, lowDigit]
    omega
  · rw [hc, decide_eq_decide]
    simp only [bcdValue, lowDigit]
    omega

theorem decAdd_z (a b : Byte) (cin : Bool) :
    (decAdd a b cin).z = decide ((a.toNat + b.toNat + bit cin) % 256 = 0) := by
  refine (beq_zero _).trans ?_
  rw [BitVec.toNat_ofNat]

/-- On decimal digits, DecSub subtracts digit by digit. -/
theorem decSub_digits {a b : Byte} (ha : isBcd a) (hb : isBcd b) (cin : Bool) :
    let low := (lowDigit a : Int) - lowDigit b + bit cin - 1
    let high := ((a.toNat / 16 : Nat) : Int) - (b.toNat / 16 : Nat) + low / 10
    (decSub a b cin).r.toNat = (high % 10).toNat * 16 + (low % 10).toNat := by
  obtain ⟨hal, hah⟩ : lowDigit a < 10 ∧ a.toNat / 16 < 10 := ha
  obtain ⟨hbl, hbh⟩ : lowDigit b < 10 ∧ b.toNat / 16 < 10 := hb
  have hbit := bit_le_one cin
  have hlow : -10 ≤ (lowDigit a : Int) - lowDigit b + bit cin - 1 := by omega
  have hhigh : (lowDigit a : Int) - lowDigit b + bit cin - 1 < 10 := by omega
  have hsum (l : Int) : (highPart a : Int) - highPart b + (l / 10 * 16 + l % 10) =
      (((a.toNat / 16 : Nat) : Int) - (b.toNat / 16 : Nat) + l / 10) * 16 + l % 10 := by
    unfold highPart
    omega
  simp only [decSub, decSub_low_correction hlow hhigh, hsum, BitVec.toNat_ofInt]
  exact (congrArg Int.toNat (decSub_high_correction (by omega) (by omega))).trans (by omega)

/-- On decimal digits, DecSub gives the decimal difference. -/
theorem decSub_bcdValue {a b : Byte} (ha : isBcd a) (hb : isBcd b) (cin : Bool) :
    isBcd (decSub a b cin).r ∧
      (bcdValue (decSub a b cin).r : Int) = ((bcdValue a : Int) - bcdValue b - (1 - bit cin : Nat)) % 100 := by
  obtain ⟨hbcd, hvalue⟩ := isBcd_of_digits (decSub_digits ha hb cin) (by omega) (by omega)
  refine ⟨hbcd, ?_⟩
  have hbit := bit_le_one cin
  rw [hvalue]
  simp only [bcdValue, lowDigit]
  omega

theorem decSub_z (a b : Byte) (cin : Bool) :
    (decSub a b cin).z = decide ((a.toNat + 256 - b.toNat + 256 - (1 - bit cin)) % 256 = 0) := by
  rw [← addCore_not_toNat_eq]
  exact beq_zero _

theorem decSub_n (a b : Byte) (cin : Bool) :
    (decSub a b cin).n = decide (128 ≤ (a.toNat + 256 - b.toNat + 256 - (1 - bit cin)) % 256) := by
  rw [← addCore_not_toNat_eq]
  exact getLsbD_seven _

/-! ## ADC and SBC -/

/-- What ADC or SBC computes in a state from its operand byte (R182, R184). -/
def aluResult (mn : Mnemonic) (s : State) (m : Byte) : AluResult :=
  if mn = .adc then adcResult s.cfg.decimalMode s.flags.d s.a m s.flags.c
  else sbcResult s.cfg.decimalMode s.flags.d s.a m s.flags.c

theorem readEffect_alu {mn : Mnemonic} (h : mn = .adc ∨ mn = .sbc) (m : Byte) (s : State) :
    readEffect mn m s = writeAlu (aluResult mn s m) s := by
  rcases h with rfl | rfl <;> rfl

theorem isReadClass_of_alu {mn : Mnemonic} (h : mn = .adc ∨ mn = .sbc) : isReadClass mn = true := by
  rcases h with rfl | rfl <;> rfl

/-- R182, R184: ADC and SBC complete wherever they are not refused. -/
theorem exec_alu_next {i : Instr} (h : i.mnemonic = .adc ∨ i.mnemonic = .sbc) {s : State} (hs : decimalRefused s = false) :
    exec i s = .next ((readEffect i.mnemonic (operandByte i.form s) (afterOperand i.form s)).tick
      (cycles i.opcode false (resolve i.form s).crossed)) := by
  rw [exec_decimal h, decimalClass, hs, if_neg Bool.false_ne_true, readClass_next (form_of_read (isReadClass_of_alu h))]

/-- R182, R184: the next state has A and four flags from the result, and the rest but PC, the history and the counter as before. -/
theorem exec_alu_writes {i : Instr} (h : i.mnemonic = .adc ∨ i.mnemonic = .sbc) {s : State} (hs : decimalRefused s = false) :
    ∃ t, exec i s = .next t ∧
      t.a = (aluResult i.mnemonic s (operandByte i.form s)).r ∧
      t.flags = (aluResult i.mnemonic s (operandByte i.form s)).setFlags s.flags ∧
      t.x = s.x ∧ t.y = s.y ∧ t.sp = s.sp ∧ keepsMemory s t ∧ keepsControl s t := by
  refine ⟨_, exec_alu_next h hs, ?_⟩
  rw [readEffect_alu h]
  refine ⟨?_, ?_, ?_, ?_, ?_, keepsMemory_of_mem ?_, ?_⟩ <;> simp [writeAlu, aluResult, keepsControl]

/-! ### Binary: under `Binary`, or with D = 0 -/

theorem decimalRefused_of_binary {s : State} (h : s.cfg.decimalMode = .binary ∨ s.flags.d = false) :
    decimalRefused s = false := by
  rcases h with h | h <;> simp [decimalRefused, h]

theorem aluResult_adc_of_binary {s : State} (h : s.cfg.decimalMode = .binary ∨ s.flags.d = false) (m : Byte) :
    aluResult .adc s m = (addCore s.a m s.flags.c).toAlu := by
  rcases h with h | h <;> simp [aluResult, adcResult, h]

theorem aluResult_sbc_of_binary {s : State} (h : s.cfg.decimalMode = .binary ∨ s.flags.d = false) (m : Byte) :
    aluResult .sbc s m = (addCore s.a (~~~m) s.flags.c).toAlu := by
  rcases h with h | h <;> simp [aluResult, sbcResult, h]

/-- Settles O24: ADC writes the sum of the binary adder. -/
theorem adcAddsInBinary : Obligations.AdcAddsInBinary := by
  intro i s hi h
  obtain ⟨t, hexec, ha, hflags, hkeeps⟩ := exec_alu_writes (.inl hi) (decimalRefused_of_binary h)
  rw [hi, aluResult_adc_of_binary h] at ha hflags
  refine ⟨t, hexec, ?_⟩
  rw [ha, hflags]
  exact ⟨addCore_toNat _ _ _, rfl, addCore_v _ _ _, beq_zero _, getLsbD_seven _, rfl, rfl, hkeeps⟩

/-- Settles O25: SBC writes the sum of A and the operand's one's complement, which is the difference with the borrow. -/
theorem sbcSubtractsInBinary : Obligations.SbcSubtractsInBinary := by
  intro i s hi h
  obtain ⟨t, hexec, ha, hflags, hkeeps⟩ := exec_alu_writes (.inr hi) (decimalRefused_of_binary h)
  rw [hi, aluResult_sbc_of_binary h] at ha hflags
  refine ⟨t, hexec, ?_⟩
  rw [ha, hflags]
  exact ⟨addCore_not_toNat _ _ _, addCore_not_c _ _ _, addCore_not_v _ _ _, beq_zero _, getLsbD_seven _, rfl, rfl, hkeeps⟩

/-! ### Decimal: D = 1 under `NmosBcd` -/

theorem decimalRefused_of_nmosBcd {s : State} (h : s.cfg.decimalMode = .nmosBcd) : decimalRefused s = false := by
  simp [decimalRefused, h]

theorem aluResult_adc_of_decimal {s : State} (h : s.cfg.decimalMode = .nmosBcd) (hd : s.flags.d = true) (m : Byte) :
    aluResult .adc s m = decAdd s.a m s.flags.c := by
  simp [aluResult, adcResult, h, hd]

theorem aluResult_sbc_of_decimal {s : State} (h : s.cfg.decimalMode = .nmosBcd) (hd : s.flags.d = true) (m : Byte) :
    aluResult .sbc s m = decSub s.a m s.flags.c := by
  simp [aluResult, sbcResult, h, hd]

/-- Settles O26: ADC writes what DecAdd gives, which on decimal digits is the decimal sum. -/
theorem adcAddsDecimalDigits : Obligations.AdcAddsDecimalDigits := by
  intro i s hi h hd
  obtain ⟨t, hexec, ha, hflags, hkeeps⟩ := exec_alu_writes (.inl hi) (decimalRefused_of_nmosBcd h)
  rw [hi, aluResult_adc_of_decimal h hd] at ha hflags
  refine ⟨t, hexec, ?_⟩
  rw [ha, hflags]
  exact ⟨fun hA hM => decAdd_bcdValue hA hM _, rfl, rfl, rfl, rfl, decAdd_z _ _ _, rfl, rfl, hkeeps⟩

/-- Settles O27: SBC writes what DecSub gives, whose flags are those of the binary subtraction. -/
theorem sbcSubtractsDecimalDigits : Obligations.SbcSubtractsDecimalDigits := by
  intro i s hi h hd
  obtain ⟨t, hexec, ha, hflags, hkeeps⟩ := exec_alu_writes (.inr hi) (decimalRefused_of_nmosBcd h)
  rw [hi, aluResult_sbc_of_decimal h hd] at ha hflags
  refine ⟨t, hexec, ?_⟩
  rw [ha, hflags]
  exact ⟨fun hA hM => decSub_bcdValue hA hM _, rfl, addCore_not_c _ _ _, addCore_not_v _ _ _, decSub_z _ _ _, decSub_n _ _ _,
    rfl, rfl, hkeeps⟩

/-! ### D under `Binary` -/

/-- Resolving does not look at the flags. -/
theorem resolve_setFlags (f : Form) (s : State) (g : Flags) :
    resolve f (s.setFlags g) = ⟨(resolve f s).operand, (resolve f s).crossed, (resolve f s).state.setFlags g⟩ := by
  cases f <;> rfl

theorem afterOperand_setFlags (f : Form) (s : State) (g : Flags) :
    afterOperand f (s.setFlags g) = (afterOperand f s).setFlags g := by
  cases f <;> rfl

theorem operandByte_setFlags (f : Form) (s : State) (g : Flags) : operandByte f (s.setFlags g) = operandByte f s := by
  cases f <;> rfl

/-- `P.D <- d`. -/
def State.setD (s : State) (d : Bool) : State := s.setFlags { s.flags with d := d }

/-- R182, R184: under `Binary` the result does not depend on D, so the effect and a change of D commute. -/
theorem readEffect_setD {mn : Mnemonic} (h : mn = .adc ∨ mn = .sbc) {s : State} (hs : s.cfg.decimalMode = .binary)
    (m : Byte) (d : Bool) : readEffect mn m (s.setD d) = (readEffect mn m s).setD d := by
  have hresult : aluResult mn (s.setD d) m = aluResult mn s m := by
    have hs' : (s.setD d).cfg.decimalMode = .binary := hs
    rcases h with rfl | rfl
    · rw [aluResult_adc_of_binary (.inl hs), aluResult_adc_of_binary (.inl hs')]; rfl
    · rw [aluResult_sbc_of_binary (.inl hs), aluResult_sbc_of_binary (.inl hs')]; rfl
  rw [readEffect_alu h, readEffect_alu h, hresult]
  rfl

theorem afterOperand_setD (f : Form) (s : State) (d : Bool) : afterOperand f (s.setD d) = (afterOperand f s).setD d := by
  rw [State.setD, State.setD, afterOperand_setFlags, afterOperand_flags]

/-- Settles O29: nothing before the effect looks at D, and the effect commutes with setting it. -/
theorem decimalFlagHasNoEffectUnderBinary : Obligations.DecimalFlagHasNoEffectUnderBinary := by
  intro i s d h hs
  refine ⟨_, exec_alu_next h (decimalRefused_of_binary (.inl hs)), ?_⟩
  have hexec : exec i (s.setD d) = _ := exec_alu_next h (decimalRefused_of_binary (.inl hs))
  rw [afterOperand_setD, readEffect_setD h (by rwa [afterOperand_cfg]), State.setD, operandByte_setFlags,
    resolve_setFlags] at hexec
  exact hexec

/-! ## AND, ORA and EOR -/

/-- What AND, ORA or EOR makes of A and the operand (R186-R188). -/
def logicByte (mn : Mnemonic) (a m : Byte) : Byte :=
  if mn = .and then a &&& m else if mn = .ora then a ||| m else a ^^^ m

theorem logicByte_getLsbD (mn : Mnemonic) (a m : Byte) (k : Nat) :
    (logicByte mn a m).getLsbD k =
      if mn = .and then (a.getLsbD k && m.getLsbD k) else if mn = .ora then (a.getLsbD k || m.getLsbD k)
      else (a.getLsbD k ^^ m.getLsbD k) := by
  unfold logicByte
  split
  · exact BitVec.getLsbD_and
  · split
    · exact BitVec.getLsbD_or
    · exact BitVec.getLsbD_xor

theorem readEffect_logic {mn : Mnemonic} (h : mn = .and ∨ mn = .ora ∨ mn = .eor) (m : Byte) (s : State) :
    readEffect mn m s = loadA (logicByte mn s.a m) s := by
  rcases h with rfl | rfl | rfl <;> rfl

/-- AND, ORA and EOR are of the read class, and none is ADC or SBC, which may be refused. -/
theorem isReadClass_of_logic {mn : Mnemonic} (h : mn = .and ∨ mn = .ora ∨ mn = .eor) :
    isReadClass mn = true ∧ mn ≠ .adc ∧ mn ≠ .sbc := by
  rcases h with rfl | rfl | rfl <;> decide

/-- Settles O30: the effect loads A with the combined byte, whose bits `logicByte_getLsbD` gives. -/
theorem logicCombinesAWithTheOperand : Obligations.LogicCombinesAWithTheOperand := by
  intro i s h
  obtain ⟨hread, hdecimal⟩ := isReadClass_of_logic h
  refine ⟨_, exec_read_next hread hdecimal s, ?_⟩
  rw [readEffect_logic h, loadA, setZN_eq]
  refine ⟨fun k _ => ?_, ?_, ?_, ?_, ?_, keepsMemory_of_mem ?_, ?_⟩ <;> simp [keepsControl, logicByte_getLsbD]

/-! ## BIT -/

/-- Bit 6, as a number. -/
theorem getLsbD_six (v : Byte) : v.getLsbD 6 = decide (64 ≤ v.toNat % 128) := by
  revert v
  decide

theorem readEffect_bit (m : Byte) (s : State) : readEffect .bit m s = s.setFlags (bitFlags s.a m s.flags) := rfl

/-- Settles O31: BIT's effect is on the flags alone. -/
theorem bitTestsTheOperand : Obligations.BitTestsTheOperand := by
  intro i s h
  have hexec := exec_read_next (i := i) (by rw [h]; rfl) (by rw [h]; decide) s
  rw [h, readEffect_bit, afterOperand_a, afterOperand_flags] at hexec
  exact ⟨_, hexec, rfl, getLsbD_seven _, getLsbD_six _, rfl, rfl, rfl, by simp [keepsRegisters],
    keepsMemory_of_mem (by simp), by simp [keepsControl]⟩

end Sys2Proof.Machine
end

section
/-! PROOF. Shifts, rotates, increments, decrements and compares (spec/44_shift_incdec_compare.md R200-R214): the flags and bytes they
compute, in numbers, and the one state a read-modify-write of memory leaves with the result of any of them. -/

namespace Sys2Proof.Machine

/-! ## CMP, CPX and CPY -/

/-- R211: the flags of a compare, in numbers. -/
theorem compareFlags_eq (r m : Byte) (f : Flags) :
    compareFlags r m f = { f with
      c := decide (r.toNat ≥ m.toNat), z := decide (r = m), n := decide (128 ≤ (r.toNat + 256 - m.toNat) % 256) } := by
  have hdiff : (r - m).toNat = (r.toNat + 256 - m.toNat) % 256 := by
    rw [BitVec.toNat_sub]
    have := m.isLt
    omega
  rw [compareFlags, getLsbD_seven, hdiff]
  rfl

/-- R212-R214: a compare writes the flags of its register against the operand, and nothing else. -/
theorem readEffect_compare {mn : Mnemonic} (h : mn = .cmp ∨ mn = .cpx ∨ mn = .cpy) (m : Byte) (s : State) :
    readEffect mn m s =
      s.setFlags (compareFlags (if mn = .cmp then s.a else if mn = .cpx then s.x else s.y) m s.flags) := by
  rcases h with rfl | rfl | rfl <;> rfl

/-- R212-R214: compares are of the read class, and none is ADC or SBC, which may be refused. -/
theorem isReadClass_of_compare {mn : Mnemonic} (h : mn = .cmp ∨ mn = .cpx ∨ mn = .cpy) :
    isReadClass mn = true ∧ mn ≠ .adc ∧ mn ≠ .sbc := by
  rcases h with rfl | rfl | rfl <;> decide

/-- Settles O32: a compare's effect is on the flags alone, and `compareFlags_eq` gives them in numbers. -/
theorem comparesSetCarryZeroNegative : Obligations.ComparesSetCarryZeroNegative := by
  intro i s h
  obtain ⟨hread, hdecimal⟩ := isReadClass_of_compare h
  refine ⟨_, exec_read_next hread hdecimal s, ?_⟩
  rw [readEffect_compare h, compareFlags_eq]
  refine ⟨?_, ?_, ?_, ?_, ?_, ?_, ?_, keepsMemory_of_mem ?_, ?_⟩ <;> simp [keepsRegisters, keepsControl]

/-! ## What a read-modify-write instruction makes of a byte and the flags -/

theorem add_one_toNat (v : Byte) : (v + 1).toNat = (v.toNat + 1) % 256 := BitVec.toNat_add v 1

theorem sub_one_toNat (v : Byte) : (v - 1).toNat = (v.toNat + 255) % 256 := by
  rw [Nat.add_comm]
  exact BitVec.toNat_sub v 1

/-- R201-R204: the result of a shift or rotate, in numbers. -/
theorem modifyByte_shift_toNat {mn : Mnemonic} (h : mn = .asl ∨ mn = .lsr ∨ mn = .rol ∨ mn = .ror) (v : Byte) (f : Flags) :
    (modifyByte mn v f).r.toNat = shiftedValue mn v f.c := by
  have hv := v.isLt
  have hc := bit_le_one f.c
  rcases h with rfl | rfl | rfl | rfl
  · exact (BitVec.toNat_shiftLeft ..).trans (by rw [Nat.shiftLeft_eq]; rfl)
  · exact (BitVec.toNat_ushiftRight ..).trans (Nat.shiftRight_eq_div_pow _ 1)
  · exact BitVec.toNat_ofNat _ 8
  · exact (BitVec.toNat_ofNat ..).trans (Nat.mod_eq_of_lt (by omega))

/-- R201-R204: a shift or rotate moves a bit into C, and Z and N describe its result. -/
theorem modifyByte_shift_flags {mn : Mnemonic} (h : mn = .asl ∨ mn = .lsr ∨ mn = .rol ∨ mn = .ror) (v : Byte) (f : Flags) :
    (modifyByte mn v f).flags = { flagsOfResult (modifyByte mn v f).r f with c := shiftedOut mn v } := by
  have hcarry : (modifyByte mn v f).flags = setZN (modifyByte mn v f).r { f with c := shiftedOut mn v } := by
    rcases h with rfl | rfl | rfl | rfl <;>
      simp only [modifyByte, aslByte, lsrByte, rolByte, rorByte, shiftedOut, getLsbD_seven, getLsbD_zero]
  rw [hcarry, setZN_carry]

/-- R205, R206: INC and DEC add 1 and 255 modulo 256. -/
theorem modifyByte_step_toNat {mn : Mnemonic} (h : mn = .inc ∨ mn = .dec) (v : Byte) (f : Flags) :
    (modifyByte mn v f).r.toNat = if mn = .inc then (v.toNat + 1) % 256 else (v.toNat + 255) % 256 := by
  rcases h with rfl | rfl
  · exact add_one_toNat v
  · exact sub_one_toNat v

/-- R205, R206: INC and DEC write Z and N only. -/
theorem modifyByte_step_flags {mn : Mnemonic} (h : mn = .inc ∨ mn = .dec) (v : Byte) (f : Flags) :
    (modifyByte mn v f).flags = flagsOfResult (modifyByte mn v f).r f := by
  rcases h with rfl | rfl <;> exact setZN_eq _ _

theorem isModify_of_shift {mn : Mnemonic} (h : mn = .asl ∨ mn = .lsr ∨ mn = .rol ∨ mn = .ror) : isModify mn = true := by
  rcases h with rfl | rfl | rfl | rfl <;> rfl

theorem isModify_of_step {mn : Mnemonic} (h : mn = .inc ∨ mn = .dec) : isModify mn = true := by
  rcases h with rfl | rfl <;> rfl

/-! ## Memory forms -/

/-- R200: the memory form of a read-modify-write instruction completes in every state, with one read and one write at its effective
address; it writes the flags computed, and leaves the rest alone. -/
theorem exec_modify_writes {i : Instr} (h : isModify i.mnemonic = true) (hf : i.form ≠ .implied) (s : State) :
    ∃ t ea, exec i s = .next t ∧ effectiveAddress i.form s = some ea ∧
      let v := operandByte i.form s
      let q := modifyByte i.mnemonic v s.flags
      t.flags = q.flags ∧ t.trace = .write ea q.r :: .read ea v :: (resolve i.form s).state.trace ∧
      (Memory.wf s.mem = true → isIo s.cfg ea = false → t.peek ea = q.r) ∧ keepsMemoryBut [ea] s t ∧
      keepsRegisters s t ∧ keepsControl s t := by
  obtain ⟨ea, hea⟩ := resolve_addr (form_of_modify h hf) s
  refine ⟨_, ea, (exec_modify h hf s).trans (rmwClass_next hea _ _), effectiveAddress_eq hea, ?_, ?_,
    fun hw hio => busWrite_peek_eq _ _ ?_ ?_, keepsMemoryBut_of_mem (keepsMemoryBut_busWrite ea _ _) ?_ rfl, ?_, ?_⟩
  · simp
  · simp [afterOperand_trace hea]
  · simpa using hw
  · simpa using hio
  · simp
  · simp [keepsRegisters]
  · simp [keepsControl]

/-- Settles O34: the shifted byte and its flags in numbers, in the state every read-modify-write of memory leaves. -/
theorem shiftsOfMemory : Obligations.ShiftsOfMemory := by
  intro i s h hf
  obtain ⟨t, ea, hexec, hea, hflags, htrace, hpeek, hmem, hkeeps⟩ := exec_modify_writes (isModify_of_shift h) hf s
  exact ⟨t, ea, _, hexec, hea, modifyByte_shift_toNat h _ _, htrace, hpeek, hmem,
    hflags.trans (modifyByte_shift_flags h _ _), hkeeps⟩

/-- INC and DEC have memory forms only (R205, R206). -/
theorem form_ne_implied_of_step {i : Instr} (h : i.mnemonic = .inc ∨ i.mnemonic = .dec) : i.form ≠ .implied := by
  cases i <;> first | exact false_class rfl (decide_eq_true h) | exact Form.noConfusion

/-- Settles O35: the stepped byte and its flags in numbers, in the state every read-modify-write of memory leaves. -/
theorem incrementAndDecrementMemory : Obligations.IncrementAndDecrementMemory := by
  intro i s h
  obtain ⟨t, ea, hexec, hea, hflags, htrace, hpeek, hmem, hkeeps⟩ :=
    exec_modify_writes (isModify_of_step h) (form_ne_implied_of_step h) s
  exact ⟨t, ea, _, hexec, hea, modifyByte_step_toNat h _ _, htrace, hpeek, hmem,
    hflags.trans (modifyByte_step_flags h _ _), hkeeps⟩

/-! ## Accumulator forms -/

/-- R73: the accumulator forms are the shifts and rotates in the implied mode. -/
theorem shift_of_accumulator {i : Instr} (h : i = .aslA ∨ i = .lsrA ∨ i = .rolA ∨ i = .rorA) :
    (i.mnemonic = .asl ∨ i.mnemonic = .lsr ∨ i.mnemonic = .rol ∨ i.mnemonic = .ror) ∧ i.form = .implied := by
  rcases h with rfl | rfl | rfl | rfl <;> decide

/-- Settles O33: A and the flags take what the shift makes of A and the flags, and nothing else changes. -/
theorem shiftsOfTheAccumulator : Obligations.ShiftsOfTheAccumulator := by
  intro i s h
  obtain ⟨hshift, hform⟩ := shift_of_accumulator h
  exact ⟨_, exec_modifyA (isModify_of_shift hshift) hform s, modifyByte_shift_toNat hshift _ _,
    modifyByte_shift_flags hshift _ _, rfl, rfl, rfl, rfl, rfl, fun _ => rfl, rfl, rfl, rfl, rfl, rfl⟩

/-! ## INX, DEX, INY and DEY -/

/-- R207-R210: the effect is one index register stepped, Z and N of it, and nothing else. -/
theorem plainEffect_step {i : Instr} (h : i = .inx ∨ i = .dex ∨ i = .iny ∨ i = .dey) (s : State) :
    ∃ x y, plainEffect i s = { s with
        x := x, y := y, flags := flagsOfResult (if i = .inx ∨ i = .dex then x else y) s.flags } ∧
      x.toNat = (if i = .inx then (s.x.toNat + 1) % 256 else if i = .dex then (s.x.toNat + 255) % 256 else s.x.toNat) ∧
      y.toNat = (if i = .iny then (s.y.toNat + 1) % 256 else if i = .dey then (s.y.toNat + 255) % 256 else s.y.toNat) := by
  simp only [← setZN_eq]
  rcases h with rfl | rfl | rfl | rfl
  · exact ⟨s.x + 1, s.y, rfl, add_one_toNat s.x, rfl⟩
  · exact ⟨s.x - 1, s.y, rfl, sub_one_toNat s.x, rfl⟩
  · exact ⟨s.x, s.y + 1, rfl, rfl, add_one_toNat s.y⟩
  · exact ⟨s.x, s.y - 1, rfl, rfl, sub_one_toNat s.y⟩

/-- The four index steps are plain instructions. -/
theorem isPlain_of_step {i : Instr} (h : i = .inx ∨ i = .dex ∨ i = .iny ∨ i = .dey) : isPlain i = true := by
  rcases h with rfl | rfl | rfl | rfl <;> rfl

/-- Settles O36: the step of the index register and its flags in numbers; the rest of the state is the old one. -/
theorem incrementAndDecrementIndex : Obligations.IncrementAndDecrementIndex := by
  intro i s h
  obtain ⟨x, y, heffect, hx, hy⟩ := plainEffect_step h s
  refine ⟨_, exec_plain_next (isPlain_of_step h) s, ?_⟩
  rw [heffect]
  exact ⟨hx, hy, rfl, rfl, rfl, rfl, rfl, fun _ => rfl, rfl, rfl, rfl, rfl, rfl⟩

end Sys2Proof.Machine
end

section
/-! PROOF. Control transfer: branches, jumps, calls and returns (spec/45_control_transfer.md R230-R243). -/

namespace Sys2Proof.Machine

/-! ## Branches and jumps -/

/-- R230, R240: setting PC after the operand is resolved leaves everything but PC, the history and the counter alone. -/
theorem jump_keeps (f : Form) (s : State) (w : Word) (n : Nat) :
    let t := ((resolve f s).state.setPC w).tick n
    t.flags = s.flags ∧ keepsRegisters s t ∧ keepsMemory s t ∧ keepsControl s t := by
  refine ⟨by simp, ?_, keepsMemory_of_mem (by simp), ?_⟩
  · simp [keepsRegisters]
  · simp [keepsControl]

/-- R230: a branch is a jump to its target when its condition holds, and a jump past itself when not. -/
theorem exec_branch_next {i : Instr} (h : isBranch i.mnemonic = true) (s : State) :
    ∃ d n, i.form = .relative d ∧ exec i s = .next (((resolve (.relative d) s).state.setPC
      (if branchTaken i.mnemonic s.flags then s.pc + 1 + sext16 d else s.pc + 1)).tick n) := by
  obtain ⟨d, hform, hexec⟩ := exec_branch h s
  refine ⟨d, cycles i.opcode (branchTaken i.mnemonic s.flags) (resolve (.relative d) s).crossed, hform, ?_⟩
  rw [hexec, branchClass_next]
  cases branchTaken i.mnemonic s.flags <;> rfl

/-- Settles O37: the displacement is the one byte resolved, and PC takes the target or the address after the branch. -/
theorem branchesTestTheirFlag : Obligations.BranchesTestTheirFlag := by
  intro i s h
  obtain ⟨d, n, hform, hexec⟩ := exec_branch_next h s
  refine ⟨_, d, hexec, hform, fun htaken => ?_, fun hnot => ?_, rfl, jump_keeps (.relative d) s _ n⟩
  · rw [htaken]
    exact add_sext16_toNat (s.pc + 1) d
  · rw [hnot]
    rfl

/-- R110: the address of the pointer's high byte is fixed by its number. -/
theorem eq_word_hi8_lo8_add_one {p hiAddr : Word} (h : hiAddr.toNat = p.toNat / 256 * 256 + (p.toNat + 1) % 256) :
    hiAddr = word (hi8 p) (lo8 p + 1) := by
  apply BitVec.eq_of_toNat_eq
  rw [h, word_hi8_lo8_add_one_toNat, Nat.mod_add_mod]

/-- Settles O38: each form jumps to what its operand resolves to, and its events are those of resolving. -/
theorem jumpsSetPC : Obligations.JumpsSetPC := by
  refine ⟨fun s w => ?_, fun s p hiAddr h => ?_⟩
  · refine ⟨_, exec_jmpAbs w s, rfl, ?_, jump_keeps (.absolute w) s w _⟩
    exact eventsBetween_of_trace (es := [_, _]) (consumeWord_trace s w)
  · obtain rfl := eq_word_hi8_lo8_add_one h
    refine ⟨_, exec_jmpInd p s, ⟨_, _, ?_, rfl, fun hio => answer_ram hio, fun hio => answer_ram hio⟩, jump_keeps (.indirect p) s _ _⟩
    exact eventsBetween_of_trace (es := [_, _, _, _]) (readPointer_trace _ p _)

/-! ## A word on the stack -/

/-- Push a word, high byte first (R241, R313). -/
def pushWord (w : Word) (s : State) : State := push (lo8 w) (push (hi8 w) s)

section PushWord

variable (w : Word) (s : State)

theorem pushWord_sp : (pushWord w s).sp = s.sp - 2 := by
  rw [pushWord, push_sp, push_sp, sp_pred_two]

theorem pushWord_trace : (pushWord w s).trace =
    [.write (stackAddr (s.sp - 1)) (lo8 w), .write (stackAddr s.sp) (hi8 w)] ++ s.trace := by
  simp [pushWord]

theorem keepsMemoryBut_pushWord : keepsMemoryBut [stackAddr s.sp, stackAddr (s.sp - 1)] s (pushWord w s) := by
  have hlo := keepsMemoryBut_push (lo8 w) (push (hi8 w) s)
  rw [push_sp] at hlo
  exact keepsMemoryBut_trans (keepsMemoryBut_push (hi8 w) s) hlo

variable {s}

theorem peek_pushWord_hi (hw : Memory.wf s.mem = true) (hio : isIo s.cfg (stackAddr s.sp) = false) :
    (pushWord w s).peek (stackAddr s.sp) = hi8 w := by
  have hne : stackAddr s.sp ≠ stackAddr (push (hi8 w) s).sp := by
    rw [push_sp]
    exact stackAddr_ne (by bv_omega)
  exact (peek_push_ne (lo8 w) hne).trans (peek_push (hi8 w) hw hio)

theorem peek_pushWord_lo (hw : Memory.wf s.mem = true) (hio : isIo s.cfg (stackAddr (s.sp - 1)) = false) :
    (pushWord w s).peek (stackAddr (s.sp - 1)) = lo8 w := by
  have hlo := peek_push (lo8 w) (push_wf s (hi8 w) hw)
  rw [push_sp, push_cfg] at hlo
  exact hlo hio

/-- R242: pulling PC right after pushing a word to RAM gives the word back, moved by `k`; SP comes back by `pushWord_sp`. -/
theorem pullPC_pushWord_pc (k : Word) (hw : Memory.wf s.mem = true) (hhi : isIo s.cfg (stackAddr s.sp) = false)
    (hlo : isIo s.cfg (stackAddr (s.sp - 1)) = false) : (pullPC k (pushWord w s)).pc = w + k := by
  have hcfg : (pushWord w s).cfg = s.cfg := by simp [pushWord]
  have hsp : (pushWord w s).sp + 1 = s.sp - 1 := by rw [pushWord, push_sp, push_sp, sp_pred_succ]
  have hloByte : (pushWord w s).answer (stackAddr (s.sp - 1)) = lo8 w :=
    (answer_ram (hcfg ▸ hlo)).trans (peek_pushWord_lo w hw hlo)
  have hhiByte : (pull (pushWord w s)).2.answer (stackAddr s.sp) = hi8 w :=
    (answer_ram (by rw [pull_cfg, hcfg, hhi])).trans (peek_pushWord_hi w hw hhi)
  rw [pullPC_pc, hsp, sp_pred_succ, hloByte, hhiByte, word_hi8_lo8]

end PushWord

/-! ## Calls -/

/-- R241: JSR consumes its operand word, pushes the address of its last byte, and jumps. -/
theorem callSubroutine_eq (w : Word) (s : State) :
    callSubroutine w s = (pushWord (s.pc + 1) (consumeWord w s)).setPC w := by
  have hret : (consumeWord w s).pc - 1 = s.pc + 1 := by rw [consumeWord_pc, BitVec.add_sub_cancel]
  rw [callSubroutine, hret]
  rfl

/-- JSR completes in every state. -/
theorem exec_jsr_next (w : Word) (s : State) : ∃ n,
    exec (.jsr w) s = .next (((pushWord (s.pc + 1) (consumeWord w s)).setPC w).tick n) := by
  rw [exec_plain_next rfl s, plainEffect_jsr, callSubroutine_eq]
  exact ⟨_, rfl⟩

/-- Settles O39, from the rules of pushing a word: reading the operand before it changes PC and the history alone. -/
theorem jsrPushesItsLastAddress : Obligations.JsrPushesItsLastAddress := by
  intro s w
  obtain ⟨n, hexec⟩ := exec_jsr_next w s
  refine ⟨_, hexec, rfl, pushWord_sp _ (consumeWord w s), ?_, peek_pushWord_hi _ (s := consumeWord w s),
    peek_pushWord_lo _ (s := consumeWord w s),
    keepsMemoryBut_of_mem (keepsMemoryBut_pushWord _ (consumeWord w s)) rfl rfl, ?_⟩
  · exact eventsBetween_of_trace (es := [_, _, _, _]) (pushWord_trace _ (consumeWord w s))
  · simp [pushWord, keepsControl]

/-! ## Returns -/

/-- R242, R243: PC and the events of pulling PC, with the bytes as the bus answers them in order. -/
theorem pullPC_reads (k : Word) (s : State) :
    let lo := s.answer (stackAddr (s.sp + 1))
    let hi := (s.record (.read (stackAddr (s.sp + 1)) lo)).answer (stackAddr (s.sp + 2))
    (pullPC k s).pc = word hi lo + k ∧
    (pullPC k s).trace = .read (stackAddr (s.sp + 2)) hi :: .read (stackAddr (s.sp + 1)) lo :: s.trace := by
  rw [pullPC_pc, pullPC_trace, sp_succ_two]
  exact ⟨rfl, rfl⟩

/-- R242, R243: pulling PC leaves A, X, Y, memory, the inputs and the configuration alone. -/
theorem pullPC_keeps (k : Word) (s : State) (n : Nat) :
    let t := (pullPC k s).tick n
    t.a = s.a ∧ t.x = s.x ∧ t.y = s.y ∧ keepsMemory s t ∧ keepsControl s t :=
  ⟨pullPC_a k s, pullPC_x k s, pullPC_y k s, keepsMemory_of_mem (pullPC_mem k s), by simp [keepsControl]⟩

/-- Settles O40: RTS pulls PC, and RTI the flags and then PC from where they leave the stack. -/
theorem returnsPullPC : Obligations.ReturnsPullPC := by
  intro s
  refine ⟨_, _, ?_, ?_, List.forall_mem_cons.2 ⟨pullPC_keeps 1 s (cycles 0x60 false false),
    List.forall_mem_singleton.2 (pullPC_keeps 0 (pullFlags s) (cycles 0x40 false false))⟩⟩
  · obtain ⟨hpc, htrace⟩ := pullPC_reads 1 s
    exact ⟨exec_plain_next rfl s, hpc, pullPC_sp 1 s, pullPC_flags 1 s, htrace⟩
  · obtain ⟨hpc, htrace⟩ := pullPC_reads 0 (pullFlags s)
    have hsp : (pullFlags s).sp + 2 = s.sp + 3 := by
      rw [pullFlags_sp]
      bv_omega
    rw [hsp, pullFlags_sp, sp_succ_two] at hpc htrace
    exact ⟨exec_plain_next rfl s, hpc.trans (BitVec.add_zero _), (pullPC_sp 0 (pullFlags s)).trans hsp, registerView_flagsOfByte _, htrace⟩

/-- Pulling PC does not look at PC. -/
theorem pullPC_setPC (k w : Word) (s : State) : pullPC k (s.setPC w) = pullPC k s := rfl

/-- Settles O41: neither the jump nor the ticks between JSR and RTS matter to the pull, so it gives back the word JSR pushed. -/
theorem returnFollowsCall : Obligations.ReturnFollowsCall := by
  intro s w hw hhi hlo
  obtain ⟨n, hexec⟩ := exec_jsr_next w s
  refine ⟨_, _, hexec, exec_plain_next (i := .rts) rfl _, ?_⟩
  rw [plainEffect_rts, pullPC_tick, pullPC_setPC]
  refine ⟨?_, ?_, ?_⟩
  · have hpc := pullPC_pushWord_pc (s.pc + 1) (s := consumeWord w s) 1 hw hhi hlo
    rw [State.tick_pc, State.tick_pc, hpc]
    bv_omega
  · rw [State.tick_sp, State.tick_sp, pullPC_sp, pushWord_sp, consumeWord_sp, BitVec.sub_add_cancel]
  · simp [pushWord]

end Sys2Proof.Machine
end

section
/-! PROOF. Flag operations, NOP and BRK (spec/46_flags_system.md R260-R269): the one flag a flag operation writes, and what an interrupt
entry of any kind reads, writes and leaves alone. -/

namespace Sys2Proof.Machine

/-! ## Interrupt entry -/

@[simp] theorem afterPushes_cfg (k : InterruptKind) (s : State) : (afterPushes k s).cfg = s.cfg := by simp [afterPushes]

/-- R313, R60: the vectors lie outside the stack page, so the pushes do not change what RAM answers there, and neither does a read. -/
theorem answer_vector_of_afterPushes {k : InterruptKind} {s t : State} (hmem : t.mem = (afterPushes k s).mem)
    (hcfg : t.cfg = (afterPushes k s).cfg) {w : Word} (hw : 512 ≤ w.toNat) (hio : isIo s.cfg w = false) :
    t.answer w = s.peek w := by
  have hram : isIo t.cfg w = false := by rwa [hcfg, afterPushes_cfg]
  rw [answer_ram hram, hmem]
  exact afterPushes_peek_vector k s hw

/-- No vector lies in the stack page, nor does the byte after it (R314). -/
theorem vectorOf_above_stack (k : InterruptKind) : 512 ≤ (vectorOf k).toNat ∧ 512 ≤ (vectorOf k + 1).toNat := by
  cases k <;> decide

/-- R313, R314: the events of an interrupt entry, in order, and PC from the two bytes read at the vector. -/
theorem interruptSequence_reads_vector (k : InterruptKind) (s : State) : ∃ lo hi : Byte,
    eventsBetween s (interruptSequence k s) = [.write (stackAddr s.sp) (hi8 s.pc), .write (stackAddr (s.sp - 1)) (lo8 s.pc),
      .write (stackAddr (s.sp - 2)) (pushedP s.flags (breakBit k)), .read (vectorOf k) lo, .read (vectorOf k + 1) hi] ∧
    (interruptSequence k s).pc = word hi lo ∧
    (isIo s.cfg (vectorOf k) = false → isIo s.cfg (vectorOf k + 1) = false →
      lo = s.peek (vectorOf k) ∧ hi = s.peek (vectorOf k + 1)) := by
  obtain ⟨hlo, hhi⟩ := vectorOf_above_stack k
  exact ⟨_, _, eventsBetween_of_trace (interruptSequence_trace k s), interruptSequence_pc k s, fun hioLo hioHi =>
    ⟨answer_vector_of_afterPushes rfl rfl hlo hioLo,
      answer_vector_of_afterPushes (busRead_mem _ _) (busRead_cfg _ _) hhi hioHi⟩⟩

/-- R313, R316: an interrupt entry moves SP down by three, sets I and leaves every other flag, A, X, Y, the requests, the configuration
and the memory outside its three stack bytes alone. -/
theorem interruptSequence_keeps (k : InterruptKind) (s : State) (n : Nat) :
    let t := (interruptSequence k s).tick n
    t.sp = s.sp - 3 ∧ t.flags = { s.flags with i := true } ∧ t.a = s.a ∧ t.x = s.x ∧ t.y = s.y ∧
      keepsMemoryBut [stackAddr s.sp, stackAddr (s.sp - 1), stackAddr (s.sp - 2)] s t ∧
      t.fsm = .running ∧ t.resetPending = s.resetPending ∧ t.nmiPending = s.nmiPending ∧ t.irqLine = s.irqLine ∧ t.cfg = s.cfg := by
  refine ⟨?_, ?_, ?_, ?_, ?_, keepsMemoryBut_of_mem (keepsMemoryBut_interruptSequence k s) rfl rfl, ?_⟩ <;> simp

/-! ## BRK -/

/-- Settles O43: BRK is the interrupt entry of its kind once PC has skipped the byte after the opcode, which changes nothing else. -/
theorem brkTakesTheInterrupt : Obligations.BrkTakesTheInterrupt := by
  intro s
  obtain ⟨lo, hi, hevents, hpc, hvector⟩ := interruptSequence_reads_vector .brk (s.setPC (s.pc + 1))
  refine ⟨_, exec_plain_next (i := .brk) rfl s, ⟨lo, hi, ?_, hpc, hvector⟩, ?_⟩
  · rw [← pushedP_true]
    exact hevents
  · exact interruptSequence_keeps .brk (s.setPC (s.pc + 1)) _

/-! ## CLC, SEC, CLI, SEI, CLD, SED, CLV and NOP -/

section FlagOperation

variable {i : Instr} (h : i = .clc ∨ i = .sec ∨ i = .cli ∨ i = .sei ∨ i = .cld ∨ i = .sed ∨ i = .clv ∨ i = .nop)

include h

theorem isPlain_of_flagOperation : isPlain i = true := by
  rcases h with rfl | rfl | rfl | rfl | rfl | rfl | rfl | rfl <;> rfl

/-- R261-R268: the effect is on the flags alone, and on the one the mnemonic names. -/
theorem plainEffect_flagOperation (s : State) :
    plainEffect i s = s.setFlags { s.flags with
      c := if i = .clc then false else if i = .sec then true else s.flags.c
      i := if i = .cli then false else if i = .sei then true else s.flags.i
      d := if i = .cld then false else if i = .sed then true else s.flags.d
      v := if i = .clv then false else s.flags.v } := by
  rcases h with rfl | rfl | rfl | rfl | rfl | rfl | rfl | rfl <;> rfl

end FlagOperation

/-- Settles O42: the flags are those of the effect, and the rest of the state is the old one but for the ticks. -/
theorem flagOperationsWriteOneFlag : Obligations.FlagOperationsWriteOneFlag := by
  intro i s h
  refine ⟨_, exec_plain_next (isPlain_of_flagOperation h) s, ?_⟩
  rw [plainEffect_flagOperation h]
  refine ⟨rfl, rfl, rfl, rfl, rfl, rfl, ?_, rfl, rfl, keepsMemory_of_mem rfl, ?_⟩
  · simp [keepsRegisters]
  · simp [keepsControl]

end Sys2Proof.Machine
end

section
/-! PROOF. Requests, errors and the return from an interrupt (spec/60_exceptions.md R300-R320): the Steps that take NMI and IRQ, RTI
after an interrupt entry, and every way a Step can end in an error. -/

namespace Sys2Proof.Machine

/-! ## NMI and IRQ at the boundary -/

/-- R312: a latched NMI wins the Step over the IRQ and the instruction, whatever I is. -/
theorem step_of_nmiPending {s : State} (hf : s.fsm = .running) (hr : s.resetPending = false) (hn : s.nmiPending = true) :
    step s = .next ((interruptSequence .nmi (s.setNmiPending false)).tick sequenceTicks) := by
  simp [step, hf, stepRunning, hr, hn]

/-- R312: the IRQ line wins the Step over the instruction when I = 0. -/
theorem step_of_irqLine {s : State} (hf : s.fsm = .running) (hr : s.resetPending = false) (hn : s.nmiPending = false)
    (hq : s.irqLine = true) (hi : s.flags.i = false) : step s = .next ((interruptSequence .irq s).tick sequenceTicks) := by
  simp [step, hf, stepRunning, hr, hn, hq, hi]

/-- R357: taking a request charges 7 ticks. -/
theorem interruptSequence_tick_cycles (k : InterruptKind) (s : State) :
    ((interruptSequence k s).tick sequenceTicks).cycles = s.cycles + 7 := by
  rw [State.tick_cycles, interruptSequence_cycles, sequenceTicks]

/-- Settles O44: the Step is the NMI's interrupt entry with the latch cleared. -/
theorem nmiIsTakenAtTheBoundary : Obligations.NmiIsTakenAtTheBoundary := by
  intro s hf hr hn
  obtain ⟨hsp, hflags, ha, hx, hy, hmem, hrun, hreset, hkept⟩ :=
    interruptSequence_keeps .nmi (s.setNmiPending false) sequenceTicks
  exact ⟨_, step_of_nmiPending hf hr hn, interruptSequence_reads_vector .nmi (s.setNmiPending false), hsp, hflags, ha, hx, hy, hmem,
    interruptSequence_tick_cycles _ _, hrun, hreset.trans hr, hkept⟩

/-- Settles O45: the Step is the IRQ's interrupt entry, which leaves the line alone. -/
theorem irqIsTakenWhenIIsClear : Obligations.IrqIsTakenWhenIIsClear := by
  intro s hf hr hn hq hi
  have hvector := interruptSequence_reads_vector .irq s
  obtain ⟨hsp, hflags, ha, hx, hy, hmem, hrun, hreset, hnmi, hline, hcfg⟩ := interruptSequence_keeps .irq s sequenceTicks
  rw [breakBit, pushedP_true] at hvector
  exact ⟨_, step_of_irqLine hf hr hn hq hi, hvector, hsp, hflags, ha, hx, hy, hmem,
    interruptSequence_tick_cycles _ _, hrun, hreset.trans hr, hnmi.trans hn, hline.trans hq, hcfg⟩

/-! ## RTI after an interrupt entry -/

/-- R313: the three bytes an interrupt entry leaves on a stack in RAM. -/
theorem interruptSequence_stack (k : InterruptKind) {s : State} (hw : Memory.wf s.mem = true)
    (hhi : isIo s.cfg (stackAddr s.sp) = false) (hlo : isIo s.cfg (stackAddr (s.sp - 1)) = false)
    (hp : isIo s.cfg (stackAddr (s.sp - 2)) = false) :
    let t := interruptSequence k s
    t.peek (stackAddr (s.sp - 2)) = pushedP s.flags (breakBit k) ∧ t.peek (stackAddr (s.sp - 1)) = lo8 s.pc ∧
      t.peek (stackAddr s.sp) = hi8 s.pc := by
  have hpeek (addr : Word) : (interruptSequence k s).peek addr =
      (push (pushedP s.flags (breakBit k)) (pushWord s.pc s)).peek addr := by
    rw [State.peek, interruptSequence_mem]
    rfl
  have hsp := pushWord_sp s.pc s
  have hne {q : Byte} (h : q ≠ s.sp - 2) : stackAddr q ≠ stackAddr (pushWord s.pc s).sp := stackAddr_ne (hsp ▸ h)
  refine ⟨?_, ?_, ?_⟩
  · have hwf : Memory.wf (pushWord s.pc s).mem = true := push_wf _ _ (push_wf _ _ hw)
    have hcfg : (pushWord s.pc s).cfg = s.cfg := by simp [pushWord]
    rw [hpeek, ← hsp]
    exact peek_push _ hwf (by rwa [hcfg, hsp])
  · rw [hpeek, peek_push_ne _ (hne (by bv_omega)), peek_pushWord_lo s.pc hw hlo]
  · rw [hpeek, peek_push_ne _ (hne (by bv_omega)), peek_pushWord_hi s.pc hw hhi]

/-- R243, R320: on a stack in RAM, the return from an interrupt takes the flags from the first byte and PC from the next two. -/
theorem returnFromInterrupt_of_ram {s : State} (h1 : isIo s.cfg (stackAddr (s.sp + 1)) = false)
    (h2 : isIo s.cfg (stackAddr (s.sp + 2)) = false) (h3 : isIo s.cfg (stackAddr (s.sp + 3)) = false) :
    (returnFromInterrupt s).flags = flagsOfByte (s.peek (stackAddr (s.sp + 1))) ∧
      (returnFromInterrupt s).pc = word (s.peek (stackAddr (s.sp + 3))) (s.peek (stackAddr (s.sp + 2))) := by
  have hlo : (pullFlags s).answer (stackAddr (s.sp + 2)) = s.peek (stackAddr (s.sp + 2)) := answer_ram h2
  have hhi : (pull (pullFlags s)).2.answer (stackAddr (s.sp + 3)) = s.peek (stackAddr (s.sp + 3)) := answer_ram h3
  refine ⟨?_, ?_⟩
  · rw [returnFromInterrupt, pullPC_flags, pullFlags_flags, answer_ram h1, State.peek]
  · rw [returnFromInterrupt, pullPC_pc, pullFlags_sp, sp_succ_three, sp_succ_two, hlo, hhi]
    exact BitVec.add_zero _

/-- Settles O46: RTI reads back, in the opposite order, the three bytes the interrupt entry pushed. -/
theorem rtiUndoesAnInterruptEntry : Obligations.RtiUndoesAnInterruptEntry := by
  intro s k hw hhi hlo hp
  obtain ⟨hpByte, hloByte, hhiByte⟩ := interruptSequence_stack k hw hhi hlo hp
  have hsp1 : (interruptSequence k s).sp + 1 = s.sp - 2 := by rw [interruptSequence_sp]; bv_omega
  have hsp2 : (interruptSequence k s).sp + 2 = s.sp - 1 := by rw [interruptSequence_sp]; bv_omega
  have hsp3 : (interruptSequence k s).sp + 3 = s.sp := by rw [interruptSequence_sp]; bv_omega
  have hreturn := returnFromInterrupt_of_ram (s := interruptSequence k s)
  rw [hsp1, hsp2, hsp3, interruptSequence_cfg, hpByte, hloByte, hhiByte, flagsOfByte_pushedP, word_hi8_lo8] at hreturn
  obtain ⟨hflags, hpc⟩ := hreturn hp hlo hhi
  refine ⟨_, exec_plain_next (i := .rti) rfl _, hpc, hflags, ?_, ?_, ?_, ?_⟩
  · calc (returnFromInterrupt (interruptSequence k s)).sp
        = (interruptSequence k s).sp + 1 + 2 := pullPC_sp 0 _
      _ = s.sp := by rw [hsp1, BitVec.sub_add_cancel]
  all_goals simp [returnFromInterrupt]

/-! ## Errors -/

/-- R17: the state an error is reported with is the one it left. -/
theorem resultState_report (e : StepError) (s : State) : resultState (report e s) = some s := by cases e <;> rfl

theorem report_ne_next (e : StepError) (s t : State) : report e s ≠ .next t := by
  cases e <;> exact nofun

/-- R304: a Step in `Faulted` reports its error again. -/
theorem step_of_faulted {s : State} {e : StepError} (hf : s.fsm = .faulted e) (hr : s.resetPending = false) :
    step s = report e s := by
  simp [step, hf, stepFaulted, hr]

/-- Settles O48: the Step is the report of the error with the state unchanged. -/
theorem faultedStepsRepeatTheirOutcome : Obligations.FaultedStepsRepeatTheirOutcome := by
  intro s e hf hr
  rw [step_of_faulted hf hr]
  exact ⟨rfl, resultState_report e s, report_ne_next e s⟩

/-- R302: where decimal is refused, ADC and SBC end in the error before their operand is resolved. -/
theorem exec_alu_refused {i : Instr} (h : i.mnemonic = .adc ∨ i.mnemonic = .sbc) {s : State} (hs : decimalRefused s = true) :
    exec i s = raiseError .decimalUnmodelled s := by
  rw [exec_decimal h, decimalClass, if_pos hs]

/-- Settles O28: the refusal is the error raised in the state the instruction began in. -/
theorem decimalArithmeticIsRefused : Obligations.DecimalArithmeticIsRefused :=
  fun _ s h hm hd => exec_alu_refused h ((decimalRefused_iff s).2 ⟨hd, hm⟩)

/-- R11, R78: the policy gives no behaviour to a byte its table does not list, and `Fail` gives none to any byte. -/
theorem aliasOf_eq_none {p : IllegalPolicy} {op : Byte}
    (h : p = .fail ∨ ∃ table, p = .aliased table ∧ ∀ e ∈ table, e.1 ≠ op) : aliasOf p op = none := by
  rcases h with rfl | ⟨table, rfl, hne⟩
  · rfl
  · exact List.lookup_eq_none_iff.2 fun e he => bne_iff_ne.2 (hne e he).symm

/-- R300: an undefined byte without a behaviour ends the Step with its error. -/
theorem undefinedOpcode_of_none {op : Byte} {s : State} (h : aliasOf s.cfg.illegalPolicy op = none) (opPc : Word) :
    undefinedOpcode op opPc s = raiseError (.unimplementedOpcode op opPc) s := by
  rw [undefinedOpcode, h]

/-- R300-R302: what a Step answers that ends in an error right after the opcode fetch. -/
theorem raiseError_afterOpcode (e : StepError) (s : State) : raiseError e (afterOpcode s) = report e
    { s with pc := s.pc + 1, trace := .read s.pc (s.answer s.pc) :: s.trace, cycles := s.cycles + 1, fsm := .faulted e } := rfl

/-- R72: the byte a fetch rejects by name is the one at PC. -/
theorem eq_answer_pc_of_undefinedOpcode {s : State} {op : Byte} (h : decode (fetchBytes s) = .error (.undefinedOpcode op)) :
    op = s.answer s.pc := DecodeError.undefinedOpcode.inj (decode_fetchBytes_error h).1

/-- Settles O47: the policy has no behaviour for the byte, so the Step raises its error right after the opcode fetch. -/
theorem undefinedOpcodeFails : Obligations.UndefinedOpcodeFails := by
  intro s op he hd hp
  have hnone : aliasOf (afterOpcode s).cfg.illegalPolicy op = none := aliasOf_eq_none hp
  obtain rfl := eq_answer_pc_of_undefinedOpcode hd
  rw [step_of_undefinedOpcode he hd, undefinedOpcode_of_none hnone, raiseError_afterOpcode, report]

/-! ## Nothing else is an error -/

/-- R303: every instruction completes but where R302 refuses ADC and SBC, class by class. -/
theorem exec_completes {i : Instr} {s : State}
    (h : ¬((i.mnemonic = .adc ∨ i.mnemonic = .sbc) ∧ decimalRefused s = true)) : ∃ t, exec i s = .next t := by
  rcases exec_cases i s with hread | hstore | ⟨hmodify, hform⟩ | hbranch | ⟨w, rfl⟩ | ⟨p, rfl⟩ | ⟨-, hexec⟩
  · by_cases halu : i.mnemonic = .adc ∨ i.mnemonic = .sbc
    · exact ⟨_, exec_alu_next halu (Bool.eq_false_of_not_eq_true fun hs => h ⟨halu, hs⟩)⟩
    · exact ⟨_, exec_read_next hread (not_or.1 halu) s⟩
  · obtain ⟨ea, -, hexec⟩ := exec_store_next hstore s
    exact ⟨_, hexec⟩
  · obtain ⟨t, ea, hexec, -⟩ := exec_modify_writes hmodify hform s
    exact ⟨t, hexec⟩
  · obtain ⟨d, n, -, hexec⟩ := exec_branch_next hbranch s
    exact ⟨_, hexec⟩
  · exact ⟨_, exec_jmpAbs w s⟩
  · exact ⟨_, exec_jmpInd p s⟩
  · exact ⟨_, hexec⟩

/-- R302, R303: an instruction completes or is refused. -/
theorem exec_completes_or_refused (i : Instr) (s : State) :
    (∃ t, exec i s = .next t) ∨ exec i s = raiseError .decimalUnmodelled s := by
  by_cases h : (i.mnemonic = .adc ∨ i.mnemonic = .sbc) ∧ decimalRefused s = true
  · exact .inr (exec_alu_refused h.1 h.2)
  · exact .inl (exec_completes h)

/-- R78, R83: an undefined byte completes, or ends in one of two errors in the state it began in. -/
theorem undefinedOpcode_completes_or_raises (op : Byte) (opPc : Word) (s : State) :
    (∃ t, undefinedOpcode op opPc s = .next t) ∨
      ∃ e, (e = .unimplementedOpcode op opPc ∨ e = .decimalUnmodelled) ∧ undefinedOpcode op opPc s = raiseError e s := by
  cases halias : aliasOf s.cfg.illegalPolicy op with
  | none => exact .inr ⟨_, .inl rfl, undefinedOpcode_of_none halias opPc⟩
  | some k =>
    simp only [undefinedOpcode, halias, runBehaviour]
    split
    · exact .inr ⟨_, .inr rfl, rfl⟩
    · exact .inl ⟨_, rfl⟩

/-- R83: a Step in `Running` completes, or raises one of two errors right after the opcode fetch. -/
theorem step_completes_or_raises {s : State} (hf : s.fsm = .running) :
    (∃ t, step s = .next t) ∨ ∃ e, (e = .unimplementedOpcode (s.answer s.pc) s.pc ∨ e = .decimalUnmodelled) ∧
      step s = raiseError e (afterOpcode s) := by
  rcases step_cases s with ⟨-, h⟩ | ⟨e, hfault, -⟩ | ⟨-, -, -, h⟩ | ⟨-, -, -, -, -, h⟩ | ⟨-, i, rest, -, h⟩ | ⟨-, op, hd, h⟩
  · exact .inl ⟨_, h⟩
  · exact absurd (hf.symm.trans hfault) Fsm.noConfusion
  · exact .inl ⟨_, h⟩
  · exact .inl ⟨_, h⟩
  · rw [h]
    exact (exec_completes_or_refused i (afterOpcode s)).imp_right fun hexec => ⟨_, .inr rfl, hexec⟩
  · obtain rfl := eq_answer_pc_of_undefinedOpcode hd
    rw [h]
    exact undefinedOpcode_completes_or_raises _ _ _

/-- Settles O50, from the classes of instructions and the cases of a Step. -/
theorem nothingElseIsAnError : Obligations.NothingElseIsAnError := by
  refine ⟨fun i s h => exec_completes fun ⟨halu, hs⟩ => ?_, fun s hf => step_completes_or_raises hf⟩
  obtain ⟨hd, hm⟩ := (decimalRefused_iff s).1 hs
  exact h ⟨halu, hm, hd⟩

end Sys2Proof.Machine
end

section
/-! PROOF. Reset and the counter (spec/70_reset_and_hazards.md R340-R358): the state after the Reset sequence, the ticks of every
instruction, and no Step that reads the counter. -/

namespace Sys2Proof.Machine

/-! ## No Step reads the counter

Each lemma says of one handler or outcome that it commutes with `State.tick`, as `Laws/Ticks` says it of the operations. -/

section Later

variable (s : State) (n : Nat)

theorem report_tick (e : StepError) : report e (s.tick n) = Result.later n (report e s) := by cases e <;> rfl

/-- The ticks a handler charges at its end come to the same whether the counter starts later or not. -/
theorem next_tick_tick (m : Nat) : .next ((s.tick n).tick m) = Result.later n (.next (s.tick m)) :=
  congrArg Host.Outcome.next (tick_tick_comm s n m)

theorem impliedClass_tick (op : Byte) {f : State → State} (hf : f (s.tick n) = (f s).tick n) :
    impliedClass op f (s.tick n) = Result.later n (impliedClass op f s) := by
  rw [impliedClass, hf]
  exact next_tick_tick _ n _

theorem readClass_tick (op : Byte) {form : Form} (hform : readable form = true) (mn : Mnemonic) :
    readClass op form (readEffect mn) (s.tick n) = Result.later n (readClass op form (readEffect mn) s) := by
  rw [readClass_next hform, readClass_next hform, operandByte_tick, afterOperand_tick, readEffect_tick, resolve_tick]
  exact next_tick_tick _ n _

/-- R182, R184: neither the refusal nor the arithmetic reads the counter. -/
theorem decimalClass_tick (op : Byte) {form : Form} (hform : readable form = true) (mn : Mnemonic) :
    decimalClass op form (readEffect mn) (s.tick n) = Result.later n (decimalClass op form (readEffect mn) s) := by
  have hrefused : decimalRefused (s.tick n) = decimalRefused s := rfl
  rw [decimalClass, decimalClass, hrefused]
  split
  · exact raiseError_tick s n _
  · exact readClass_tick s n op hform mn

theorem storeClass_tick (op : Byte) {form : Form} (hform : inMemory form = true) (v : Byte) :
    storeClass op form v (s.tick n) = Result.later n (storeClass op form v s) := by
  obtain ⟨ea, hea⟩ := resolve_addr hform s
  have hea' : (resolve form (s.tick n)).operand = .addr ea := by rw [resolve_tick, hea]
  rw [storeClass_next hea', storeClass_next hea, resolve_tick, busWrite_tick]
  exact next_tick_tick _ n _

theorem rmwClass_tick (op : Byte) {form : Form} (hform : inMemory form = true) (f : Byte → Flags → Modified) :
    rmwClass op form f (s.tick n) = Result.later n (rmwClass op form f s) := by
  obtain ⟨ea, hea⟩ := resolve_addr hform s
  have hea' : (resolve form (s.tick n)).operand = .addr ea := by rw [resolve_tick, hea]
  rw [rmwClass_next hea', rmwClass_next hea, operandByte_tick, afterOperand_tick, State.tick_flags, tick_setFlags, busWrite_tick,
    resolve_tick]
  exact next_tick_tick _ n _

theorem branchClass_tick (op d : Byte) (taken : Bool) :
    branchClass op d taken (s.tick n) = Result.later n (branchClass op d taken s) := by
  rw [branchClass_next, branchClass_next, resolve_tick]
  cases taken with
  | false => exact next_tick_tick (consume d s) n _
  | true => exact next_tick_tick ((consume d s).setPC (s.pc + 1 + sext16 d)) n _

theorem jumpClass_tick (op : Byte) (form : Form) : jumpClass op form (s.tick n) = Result.later n (jumpClass op form s) := by
  rw [jumpClass, jumpClass, resolve_tick]
  cases (resolve form s).operand
  case none | imm => exact raiseError_tick s n _
  case addr w | target w => exact next_tick_tick ((resolve form s).state.setPC w) n _

/-- R354: no instruction reads the counter, class by class. -/
theorem exec_tick (i : Instr) : exec i (s.tick n) = Result.later n (exec i s) := by
  rcases exec_cases i s with hread | hstore | ⟨hmodify, hform⟩ | hbranch | ⟨w, rfl⟩ | ⟨p, rfl⟩ | ⟨hplain, -⟩
  · by_cases halu : i.mnemonic = .adc ∨ i.mnemonic = .sbc
    · rw [exec_decimal halu, exec_decimal halu]
      exact decimalClass_tick s n _ (form_of_read hread) _
    · rw [exec_read hread (not_or.1 halu), exec_read hread (not_or.1 halu)]
      exact readClass_tick s n _ (form_of_read hread) _
  · rw [exec_store hstore, exec_store hstore, storedByte_tick]
    exact storeClass_tick s n _ (form_of_store hstore) _
  · rw [exec_modify hmodify hform, exec_modify hmodify hform]
    exact rmwClass_tick s n _ (form_of_modify hmodify hform) _
  · obtain ⟨d, hform, hexec⟩ := exec_branch hbranch s
    obtain ⟨d', hform', hexec'⟩ := exec_branch hbranch (s.tick n)
    obtain rfl : d' = d := Form.relative.inj (hform'.symm.trans hform)
    rw [hexec', hexec]
    exact branchClass_tick s n _ _ _
  · exact jumpClass_tick s n 0x4C (.absolute w)
  · exact jumpClass_tick s n 0x6C (.indirect p)
  · rw [exec_plain hplain, exec_plain hplain]
    exact impliedClass_tick s n _ (plainEffect_tick s n i hplain)

theorem undefinedOpcode_tick (op : Byte) (opPc : Word) :
    undefinedOpcode op opPc (s.tick n) = Result.later n (undefinedOpcode op opPc s) := by
  rw [undefinedOpcode, undefinedOpcode, State.tick_cfg]
  cases aliasOf s.cfg.illegalPolicy op with
  | none => exact raiseError_tick s n _
  | some k => exact runBehaviour_tick s n _

end Later

/-- Settles O60: the counter decides no case of a Step, and each case commutes with it. -/
theorem counterIsOutputOnly : Obligations.CounterIsOutputOnly := by
  intro s n
  rcases step_cases s with ⟨hr, h⟩ | ⟨e, hf, hr, h⟩ | ⟨hf, hr, hn, h⟩ | ⟨hf, hr, hn, hq, hi, h⟩ | ⟨he, i, rest, hd, h⟩ |
    ⟨he, op, hd, h⟩
  · rw [h, step_of_resetPending (s := s.tick n) hr, resetSequence_tick]
    rfl
  · rw [h, step_of_faulted (s := s.tick n) hf hr]
    exact report_tick s n e
  · rw [h, step_of_nmiPending (s := s.tick n) hf hr hn, tick_setNmiPending, interruptSequence_tick]
    exact next_tick_tick _ n _
  · rw [h, step_of_irqLine (s := s.tick n) hf hr hn hq hi, interruptSequence_tick]
    exact next_tick_tick _ n _
  · rw [h, step_of_decode (s := s.tick n) he hd, afterOpcode_tick]
    exact exec_tick _ n i
  · rw [h, step_of_undefinedOpcode (s := s.tick n) he hd, afterOpcode_tick]
    exact undefinedOpcode_tick _ n op _

/-! ## The ticks of an instruction -/

/-- R354: the charge of an instruction's opcode is R76's base count with the extra ticks of its mnemonic and mode. -/
theorem cycles_opcode (i : Instr) (taken crossed : Bool) :
    cycles i.opcode taken crossed = baseCount i.mnemonic i.form.mode + extraTicks i.mnemonic i.form.mode taken crossed := by
  obtain ⟨r, hr, hmn, hmode, hbase⟩ := baseCountsFollowMnemonicAndMode i
  simp only [cycles, hr, hmn, hmode, hbase]

@[simp] theorem readEffect_cycles (mn : Mnemonic) (m : Byte) (s : State) : (readEffect mn m s).cycles = s.cycles := by
  cases mn <;> rfl

@[simp] theorem plainEffect_cycles (i : Instr) (s : State) : (plainEffect i s).cycles = s.cycles := by
  cases i
  case pha | php | plp | rts => simp
  case jsr => simp [callSubroutine]
  case rti => simp [returnFromInterrupt]
  case brk => simp [softwareInterrupt]
  all_goals rfl

/-- R14, R231-R238: only a branch is ever taken. -/
theorem branchTaken_of_not_isBranch {mn : Mnemonic} (h : isBranch mn = false) (f : Flags) : branchTaken mn f = false := by
  cases mn
  case bcc | bcs | beq | bne | bpl | bmi | bvc | bvs => exact false_class h rfl
  all_goals rfl

/-- A mnemonic with a data operand is no branch. -/
theorem not_isBranch_of_operand {mn : Mnemonic} (h : isReadClass mn = true ∨ isStore mn = true ∨ isModify mn = true) :
    isBranch mn = false := by
  cases mn
  case bcc | bcs | beq | bne | bpl | bmi | bvc | bvs => simp [isReadClass, isStore, isModify] at h
  all_goals rfl

/-- A plain instruction is no branch, and resolving its operand crosses no page. -/
theorem plain_charges_no_extra {i : Instr} (h : isPlain i = true) (s : State) :
    isBranch i.mnemonic = false ∧ (resolve i.form s).crossed = false := by
  cases i <;> first | exact false_class rfl h | exact ⟨rfl, rfl⟩

/-- R354: what every instruction charges, by its opcode, its branch condition and its page cross. -/
theorem exec_charges {i : Instr} {s t : State} (h : exec i s = .next t) :
    t.cycles = s.cycles + cycles i.opcode (branchTaken i.mnemonic s.flags) (resolve i.form s).crossed := by
  rcases exec_next h with ⟨hread, rfl⟩ | ⟨hstore, ea, -, rfl⟩ | ⟨hmodify, -, ea, -, rfl⟩ | ⟨-, d, hform, rfl⟩ | ⟨w, rfl, rfl⟩ |
    ⟨p, rfl, rfl⟩ | ⟨hplain, rfl⟩
  · rw [branchTaken_of_not_isBranch (not_isBranch_of_operand (.inl hread))]
    simp
  · rw [branchTaken_of_not_isBranch (not_isBranch_of_operand (.inr (.inl hstore)))]
    simp
  · rw [branchTaken_of_not_isBranch (not_isBranch_of_operand (.inr (.inr hmodify)))]
    simp
  · rw [hform]
    cases branchTaken i.mnemonic s.flags <;> rfl
  · rfl
  · rfl
  · obtain ⟨hbranch, hcrossed⟩ := plain_charges_no_extra hplain s
    rw [branchTaken_of_not_isBranch hbranch, hcrossed]
    simp

theorem isPageCrossMode_iff (m : Mode) : isPageCrossMode m = true ↔ m = .absoluteX ∨ m = .absoluteY ∨ m = .indirectY := by
  cases m <;> simp [isPageCrossMode]

/-- Settles O55: the charge is the base count with the extra ticks, whose conditions are those of R355 and R356. -/
theorem instructionsChargeTheirTicks : Obligations.InstructionsChargeTheirTicks := by
  intro i s t h
  rw [exec_charges h, cycles_opcode, extraTicks, ← Nat.add_assoc, ← Nat.add_assoc]
  simp only [Bool.and_eq_true, isPageCrossMode_iff, and_assoc]

/-! ## Reset -/

/-- R340: the Reset sequence reads the two bytes at the Reset vector, in order. -/
theorem resetSequence_performs (s : State) : Performs [.read 0xFFFC, .read 0xFFFD] s (resetSequence s) := ⟨[_, _], rfl, rfl⟩

/-- Settles O8: a pending Reset wins the Step, and the sequence sets each field. -/
theorem resetSequenceSetsEveryState : Obligations.ResetSequenceSetsEveryState := by
  intro s h
  have hflags : registerView (resetSequence s).flags = 0x24 := by
    change registerView resetFlags = 0x24
    decide
  exact ⟨_, step_of_resetPending h, rfl, rfl, rfl, rfl, hflags, rfl, rfl, rfl, rfl, rfl, rfl, rfl, rfl,
    (resetSequence_performs s).map_eventsBetween⟩

/-- Settles O58: the reset state lists no memory, and R8's default configuration is one a platform can have. -/
theorem resetMeetsTheInvariant : Obligations.ResetMeetsTheInvariant := by
  have hcfg : Config.standard.wf = true := by decide
  exact ⟨⟨Memory.wf_nil, hcfg⟩, fun _ => List.not_mem_nil⟩

end Sys2Proof.Machine
end
